-- ==== Sys2Proof/Word.lean ====
section
/-! DEFINITION. The words, instants and small containers of the ZB212: bytes, the 48-bit timebase value, the two eyes
and the three lens axes (spec/00_scope.md, Conventions). -/

namespace Sys2Proof

/-- One byte of a link record. -/
abbrev Byte := BitVec 8

/-- An instant: a value of the 48-bit timebase (R1). -/
abbrev Time := BitVec 48

/-- A mark number (R4, R5). -/
abbrev MarkNumber := BitVec 48

/-- The two eyes. -/
inductive Eye where
  | left
  | right
deriving DecidableEq, Repr

/-- The partner of an eye. -/
def Eye.other : Eye → Eye
  | .left => .right
  | .right => .left

/-- Something the part holds once for each eye. -/
structure PerEye (α : Type) where
  left : α
  right : α
deriving DecidableEq, Repr

namespace PerEye

variable {α β : Type}

/-- The value held for an eye. -/
def get (p : PerEye α) : Eye → α
  | .left => p.left
  | .right => p.right

/-- Replace the value held for one eye. -/
def set (p : PerEye α) (e : Eye) (a : α) : PerEye α :=
  match e with
  | .left => { p with left := a }
  | .right => { p with right := a }

/-- The same value for both eyes. -/
def both (a : α) : PerEye α := ⟨a, a⟩

/-- Apply a function to both values. -/
def map (f : α → β) (p : PerEye α) : PerEye β := ⟨f p.left, f p.right⟩

/-- A value for each eye from a function of the eye. -/
def of (f : Eye → α) : PerEye α := ⟨f .left, f .right⟩

end PerEye

/-- The three lens axes, in the order the data book lists them. -/
inductive Axis where
  | focus
  | iris
  | zoom
deriving DecidableEq, Repr

/-- Something held once for each lens axis. -/
structure PerAxis (α : Type) where
  focus : α
  iris : α
  zoom : α
deriving DecidableEq, Repr

namespace PerAxis

variable {α β : Type}

/-- The value held for an axis. -/
def get (p : PerAxis α) : Axis → α
  | .focus => p.focus
  | .iris => p.iris
  | .zoom => p.zoom

/-- The same value for every axis. -/
def all (a : α) : PerAxis α := ⟨a, a, a⟩

/-- Apply a function to the three values. -/
def map (f : α → β) (p : PerAxis α) : PerAxis β := ⟨f p.focus, f p.iris, f p.zoom⟩

/-- A value for each axis from a function of the axis. -/
def of (f : Axis → α) : PerAxis α := ⟨f .focus, f .iris, f .zoom⟩

/-- Some axis satisfies the test. -/
def any (f : α → Bool) (p : PerAxis α) : Bool := f p.focus || f p.iris || f p.zoom

end PerAxis

end Sys2Proof
end

