-- ==== Sys2Proof/Syntax.lean ====
section
/-! DEFINITION. The commands of the ZB212: one constructor for each row of spec/opcode_table.json, with the fields that
the layouts of spec/10_record_layouts.md give its record. -/

namespace Sys2Proof

/-- One offer block of a CAPS report as sent (10.2, offer block). -/
structure RawOffer where
  index : Byte
  geometry : Byte
  normal : BitVec 32
  reversedPresent : Byte
  reversed : BitVec 32
  blank : BitVec 32
  maxRate : BitVec 32
deriving DecidableEq, Repr

/-- The body of a CAPS report as sent (10.2). -/
structure RawCaps where
  identityPresent : Byte
  identity : BitVec 32
  axes : Byte
  offers : List RawOffer
deriving DecidableEq, Repr

/-- The body of a FRAME report as sent (10.2). -/
structure RawFrame where
  trigger : BitVec 16
  echo : BitVec 16
  delay : BitVec 16
  status : Byte
  axes : Byte
  focus : BitVec 16
  iris : BitVec 16
  zoom : BitVec 16
deriving DecidableEq, Repr

/-- A camera report (R40, 10.2). -/
inductive Report where
  | caps (c : RawCaps)
  | accept (index : Byte)
  | refuse (index : Byte)
  | frame (f : RawFrame)
  | idle
deriving DecidableEq, Repr

/-- The body of a PROFILE request as sent (10.4). -/
structure RawProfile where
  orientationL : Byte
  orientationR : Byte
  geometry : Byte
  rateNeeded : BitVec 32
  opposed : Byte
  anchor : BitVec 16
  depth : Byte
  skewLimit : BitVec 32
  tolFocus : BitVec 16
  tolIris : BitVec 16
  tolZoom : BitVec 16
deriving DecidableEq, Repr

/-- A rig control request with its fields as sent (10.4). PORT carries its action, 00 disable or 01 enable. -/
inductive Request where
  | profile (p : RawProfile)
  | source (code : Byte)
  | rate (target : BitVec 32) (marks : BitVec 16)
  | shutter (mode : Byte) (value : BitVec 32)
  | demand (axes : Byte) (focus iris zoom : BitVec 16)
  | roll
  | cut
  | port (eye action : Byte)
  | stageReset
  | stageWrite (offset : BitVec 16) (data : List Byte)
  | commit (slot : Byte)
  | discard (slot : Byte)
  | save (slot : Byte)
  | readSlot (slot : Byte) (offset : BitVec 16) (length : Byte)
  | query
  | clearNotices (mask : BitVec 16)
  | reset
deriving DecidableEq, Repr

/-- The three kinds of reset (9.6). -/
inductive ResetKind where
  | powerOn
  | pin
  | request
deriving DecidableEq, Repr

/-- The commands, one for each row of spec/opcode_table.json. A request or report command is the rising edge of SEL#
that ends the transaction carrying it; `pad` is the number of bits clocked after the record, whatever they are (R33, R35,
R163). A command of a falling edge carries in `early` the number of bits clocked before the next command, 0 unless given:
where a reset or a partial reset follows, the bits that had gone out (R39, R166; notes/assumptions/5.md). -/
inductive Instr where
  -- requests of the rig controller
  | profile (p : RawProfile) (pad : Nat)
  | source (code : Byte) (pad : Nat)
  | rate (target : BitVec 32) (marks : BitVec 16) (pad : Nat)
  | shutter (mode : Byte) (value : BitVec 32) (pad : Nat)
  | demand (axes : Byte) (focus iris zoom : BitVec 16) (pad : Nat)
  | roll (pad : Nat)
  | cut (pad : Nat)
  | portEnable (eye : Byte) (pad : Nat)
  | portDisable (eye : Byte) (pad : Nat)
  | stageReset (pad : Nat)
  | stageWrite (offset : BitVec 16) (data : List Byte) (pad : Nat)
  | commit (slot : Byte) (pad : Nat)
  | discard (slot : Byte) (pad : Nat)
  | save (slot : Byte) (pad : Nat)
  | readSlot (slot : Byte) (offset : BitVec 16) (length : Byte) (pad : Nat)
  | query (pad : Nat)
  | clearNotices (mask : BitVec 16) (pad : Nat)
  | reset (pad : Nat)
  -- other transactions of the rig control port
  | rcpTransactionStart (early : Nat := 0)
  | collection (count : Nat)
  | rcpRecordRefused (bits : List Bool)
  -- transactions of the eye ports
  | eyeTransactionStart (eye : Eye) (early : Nat := 0)
  | capsReceived (eye : Eye) (caps : RawCaps) (pad : Nat)
  | acceptReceived (eye : Eye) (index : Byte) (pad : Nat)
  | refuseReceived (eye : Eye) (index : Byte) (pad : Nat)
  | frameReceived (eye : Eye) (frame : RawFrame) (pad : Nat)
  | idle (eye : Eye) (pad : Nat)
  | reportDiscarded (eye : Eye) (bits : List Bool)
  -- reports taken from the receive slots
  | capsTaken (eye : Eye)
  | acceptTaken (eye : Eye)
  | refuseTaken (eye : Eye)
  | frameTaken (eye : Eye)
  -- presence
  | presRise (eye : Eye)
  | presFall (eye : Eye)
  | settleComplete (eye : Eye)
  | detach (eye : Eye)
  -- marks and plans
  | rollingMark
  | planComplete
  | drainMark
  | leadMark
  | setupReferenceMark
  -- reference
  | refinEdge
  | refWindowClose
  -- trigger line
  | triggerPulse (eye : Eye)
  | trigPulseEnd (eye : Eye)
  -- lens table store
  | saveComplete
  | loadComplete
  -- pair port
  | pairReadStart (early : Nat := 0)
  | pairReadEnd (count : Nat)
  -- resets
  | powerOnReset
  | pinReset (lowTicks : Nat)
  | resetRelease (kind : ResetKind)
deriving DecidableEq, Repr

end Sys2Proof
end

