-- ==== Sys2Proof/WellFormed.lean ====
section
/-! DEFINITION. Which commands are well formed: the limits that the record layouts put on the fields of variable length
(R163, R178). Every other field is as wide as its record makes it. An ill-formed command still has a meaning: its record
cannot be whole, so the port refuses or discards it. -/

namespace Sys2Proof

/-- A report can be framed: a CAPS holds at most 12 offer blocks (R178). -/
def Report.framable : Report → Bool
  | .caps c => decide (c.offers.length ≤ 12)
  | _ => true

/-- A request has a body length its kind allows: STAGE_WRITE carries 1 to 64 data bytes (R163). -/
def Request.framable : Request → Bool
  | .stageWrite _ data => decide (1 ≤ data.length ∧ data.length ≤ 64)
  | _ => true

/-- The checks on a command's operands. A RCP_RECORD_REFUSED clocks at least one bit that is not 0 (else it is a
collection, R163). -/
def Instr.wellFormed : Instr → Bool
  | .capsReceived _ caps _ => (Report.caps caps).framable
  | .stageWrite offset data _ => (Request.stageWrite offset data).framable
  | .rcpRecordRefused bits => bits.any id
  | _ => true

end Sys2Proof
end

