-- ==== Sys2Proof/Config.lean ====
section
/-! DEFINITION. The fixed figures of the part, each with the rule that gives it. The data book leaves no value of the
part open to an implementation, so there is no free value here (notes/assumptions/23.md). -/

namespace Sys2Proof.Config

/-- Ticks PRES must stay high before an eye is LISTENING (R27). -/
def settleTicks : Nat := 10000000

/-- Ticks PRES must stay low before an attached eye is detached (R28). -/
def detachTicks : Nat := 100000

/-- Ticks a trigger pulse holds TRIG high (R46). -/
def pulseTicks : Nat := 100

/-- Ticks RST# must be low to be recognised (R173). -/
def pinResetTicks : Nat := 1000

/-- Ticks a request reset stays in force (R174). -/
def requestResetTicks : Nat := 1000

/-- Ticks of stable clock before a power-on reset is released (R172). -/
def powerOnTicks : Nat := 200000

/-- The earliest completion of a save, in ticks after its acceptance (R108). -/
def saveMinTicks : Nat := 2000000

/-- The most records the pair queue holds (R153). -/
def queueDepth : Nat := 64

/-- The length of a pair record in bytes (R157, 10.5). -/
def pairRecordBytes : Nat := 74

/-- The staging buffer's length in bytes (5.1). -/
def stagingBytes : Nat := 400

/-- The largest lost-report count (R44). -/
def lostMax : Nat := 255

/-- The agreed ceiling when there is no agreement, in mfps (R12, R47). -/
def freeCeiling : Nat := 240000

/-- The lowest frame rate, in mfps (R12, R13). -/
def minRate : Nat := 1000

/-- The highest frame rate, in mfps (R13). -/
def maxRate : Nat := 240000

/-- Ticks in a second times 1,000: a period in ticks times a rate in mfps (R11). -/
def tickRate : Nat := 100000000000

/-- The shortest reference period (R17, R20). -/
def minPeriod : Nat := 400000

/-- The longest reference period (R17, R20). -/
def maxPeriod : Nat := 100000000

end Sys2Proof.Config
end

