-- ==== Sys2Proof/Machine/Arith.lean ====
section
/-! DEFINITION. The arithmetic of spec/00_scope.md (Conventions): rounding half away from zero, differences of instants
(R1), and big-endian bytes (R177). -/

namespace Sys2Proof.Machine

/-- A non-negative quotient rounded half away from zero. -/
def roundDiv (n d : Nat) : Nat := (2 * n + d) / (2 * d)

/-- A signed quotient rounded half away from zero. -/
def roundQuot (n d : Int) : Int :=
  if (n < 0) = (d < 0) then (roundDiv n.natAbs d.natAbs : Nat) else -((roundDiv n.natAbs d.natAbs : Nat) : Int)

/-- A rate in mfps as a period in ticks, and a period as a rate: 10^11 / x, rounded half away from zero (R11, R24). -/
def perTick (x : Nat) : Nat := roundDiv Config.tickRate x

/-- The signed difference of two instants, modulo 2^48 (R1). -/
def timeDiff (a b : Time) : Int := (a - b).toInt

/-- The ticks from now to an instant that lies ahead; 0 for one that has passed. -/
def ticksUntil (now t : Time) : Nat := (timeDiff t now).toNat

/-- An instant moved by a number of ticks. -/
def after (t : Time) (n : Nat) : Time := t + BitVec.ofNat 48 n

/-- A value limited to a range; the upper bound wins. -/
def limit (lo hi x : Nat) : Nat := min (max x lo) hi

/-- A signed value limited to plus or minus a bound. -/
def limitAbs (bound : Nat) (x : Int) : Int := max (-(bound : Int)) (min x bound)

/-- The `k` big-endian bytes of a number, taken modulo 256^k (R177). -/
def be : Nat → Nat → List Byte
  | 0, _ => []
  | k + 1, n => BitVec.ofNat 8 (n / 256 ^ k) :: be k n

/-- The number that big-endian bytes spell (R177). -/
def fromBe (bytes : List Byte) : Nat := bytes.foldl (fun acc b => acc * 256 + b.toNat) 0

/-- The two's complement of a signed number over `k` bytes (R177). -/
def beSigned (k : Nat) (x : Int) : List Byte := be k (x % (256 ^ k : Nat)).toNat

end Sys2Proof.Machine
end

