-- ==== Sys2Proof/Machine/Wire.lean ====
section
/-! DEFINITION. The record frame and check of the four links, and the bytes of the reports and requests the masters
send (spec/00_scope.md, 02_eye_links.md 2.4, 10_record_layouts.md 10.1 to 10.4). -/

namespace Sys2Proof.Machine

/-- One bit of the record check, polynomial x^16 + x^12 + x^5 + 1. -/
def crcBit (c : Nat) : Nat := if 32768 ≤ c then (2 * c % 65536) ^^^ 0x1021 else 2 * c

/-- A number of bits of the record check. -/
def crcBits : Nat → Nat → Nat
  | 0, c => c
  | k + 1, c => crcBits k (crcBit c)

/-- One byte of the record check. -/
def crcByte (c : Nat) (b : Byte) : Nat := crcBits 8 (c ^^^ (b.toNat * 256))

/-- The record check carried on over more bytes. (The split on the accumulator lets the kernel evaluate it byte by
byte.) -/
def crcFrom : Nat → List Byte → Nat
  | c, [] => c
  | 0, b :: bs => crcFrom (crcByte 0 b) bs
  | c + 1, b :: bs => crcFrom (crcByte (c + 1) b) bs

/-- The record check: it starts from all ones and takes no final inversion. -/
def recordCheck (bytes : List Byte) : Nat := crcFrom 0xFFFF bytes

/-- Bytes followed by their record check. -/
def withCheck (bytes : List Byte) : List Byte := bytes ++ be 2 (recordCheck bytes)

/-- A record: kind, length, body and check (10.1). -/
def frameRecord (kind : Byte) (body : List Byte) : List Byte :=
  withCheck (kind :: BitVec.ofNat 8 body.length :: body)

/-- `n` bytes of 0x00. -/
def zeros (n : Nat) : List Byte := List.replicate n 0

/-- A list cut or filled to `n` entries. -/
def padded {α : Type} (fill : α) (l : List α) (n : Nat) : List α := l.take n ++ List.replicate (n - l.length) fill

/-! ## The bits of a link (spec/00_scope.md, Signal Summary; R33) -/

/-- A byte as it is clocked, most significant bit first. -/
def byteBits (b : Byte) : List Bool := (List.range 8).map b.getMsbD

/-- Bytes as they are clocked. -/
def toBits (bytes : List Byte) : List Bool := bytes.flatMap byteBits

/-- A byte from its bits, most significant bit first. -/
def byteOfBits (l : List Bool) : Byte := BitVec.ofNat 8 (l.foldl (fun n b => 2 * n + b.toNat) 0)

/-- The whole bytes among the bits clocked in: each eighth bit completes one, and a byte whose eighth bit was not clocked
does not count (R33). -/
def wholeBytes : List Bool → List Byte
  | b7 :: b6 :: b5 :: b4 :: b3 :: b2 :: b1 :: b0 :: rest => byteOfBits [b7, b6, b5, b4, b3, b2, b1, b0] :: wholeBytes rest
  | _ => []

/-- What SDO carries in `n` bits of a served transaction: the latched record from its first bit, then 0x00 (R35, R157,
R162). -/
def clockOut (image : List Byte) (n : Nat) : List Bool := padded false (toBits image) n

/-- What SDO has carried in a transaction of `n` bits that was abandoned after the bits in `out`: these, and 0x00 for the
rest of it (R39, R152, R166). -/
def thenZeros (out : List Bool) (n : Nat) : List Bool := padded false out n

/-- What a port finds in the bytes clocked in. -/
inductive Framed where
  | bad
  | record (kind : Byte) (body : List Byte)
deriving DecidableEq, Repr

/-- The tests a record must pass to be whole: four bytes, a length of 250 or less, every byte of it clocked in, and a
correct check (R40, R163). Bytes after the check are padding. -/
def readFrame : List Byte → Framed
  | kind :: len :: rest =>
    if 250 < len.toNat ∨ rest.length < len.toNat + 2 then .bad
    else
      let body := rest.take len.toNat
      if fromBe ((rest.drop len.toNat).take 2) = recordCheck (kind :: len :: body) then .record kind body else .bad
  | _ => .bad

/-- The kind codes of the reports (10.1). -/
def reportKind : Report → Byte
  | .caps _ => 0x21
  | .accept _ => 0x22
  | .refuse _ => 0x23
  | .frame _ => 0x24
  | .idle => 0x2F

/-- The 19 bytes of an offer block (10.2). -/
def offerBytes (o : RawOffer) : List Byte :=
  [o.index, o.geometry] ++ be 4 o.normal.toNat ++ [o.reversedPresent] ++ be 4 o.reversed.toNat ++
    be 4 o.blank.toNat ++ be 4 o.maxRate.toNat

/-- The body of a report (10.2). -/
def reportBody : Report → List Byte
  | .caps c => [c.identityPresent] ++ be 4 c.identity.toNat ++ [c.axes] ++ c.offers.flatMap offerBytes
  | .accept index => [index]
  | .refuse index => [index]
  | .frame f =>
    be 2 f.trigger.toNat ++ be 2 f.echo.toNat ++ be 2 f.delay.toNat ++ [f.status, f.axes] ++
      be 2 f.focus.toNat ++ be 2 f.iris.toNat ++ be 2 f.zoom.toNat
  | .idle => []

/-- The record of a report. -/
def reportRecord (r : Report) : List Byte := frameRecord (reportKind r) (reportBody r)

/-- The kind codes of the requests (10.4). -/
def requestKind : Request → Byte
  | .profile _ => 0x61
  | .source _ => 0x62
  | .rate _ _ => 0x63
  | .shutter _ _ => 0x64
  | .demand _ _ _ _ => 0x65
  | .roll => 0x66
  | .cut => 0x67
  | .port _ _ => 0x68
  | .stageReset => 0x69
  | .stageWrite _ _ => 0x6A
  | .commit _ => 0x6B
  | .discard _ => 0x6C
  | .save _ => 0x6D
  | .readSlot _ _ _ => 0x6E
  | .query => 0x6F
  | .clearNotices _ => 0x70
  | .reset => 0x71

/-- The body of a request (10.4). -/
def requestBody : Request → List Byte
  | .profile p =>
    [p.orientationL, p.orientationR, p.geometry] ++ be 4 p.rateNeeded.toNat ++ [p.opposed] ++ be 2 p.anchor.toNat ++
      [p.depth] ++ be 4 p.skewLimit.toNat ++ be 2 p.tolFocus.toNat ++ be 2 p.tolIris.toNat ++ be 2 p.tolZoom.toNat
  | .source code => [code]
  | .rate target marks => be 4 target.toNat ++ be 2 marks.toNat
  | .shutter mode value => [mode] ++ be 4 value.toNat
  | .demand axes focus iris zoom => [axes] ++ be 2 focus.toNat ++ be 2 iris.toNat ++ be 2 zoom.toNat
  | .roll => []
  | .cut => []
  | .port eye action => [eye, action]
  | .stageReset => []
  | .stageWrite offset data => be 2 offset.toNat ++ data
  | .commit slot => [slot]
  | .discard slot => [slot]
  | .save slot => [slot]
  | .readSlot slot offset length => [slot] ++ be 2 offset.toNat ++ [length]
  | .query => []
  | .clearNotices mask => be 2 mask.toNat
  | .reset => []

/-- The record of a request. -/
def requestRecord (r : Request) : List Byte := frameRecord (requestKind r) (requestBody r)

/-- The empty image: identity 0, no axes, and its check (R95). -/
def emptyImage : List Byte := withCheck (zeros 5)

/-- The staging buffer as STAGE_RESET and a reset leave it (R95). -/
def emptyStaging : List Byte := emptyImage ++ zeros (Config.stagingBytes - 7)

end Sys2Proof.Machine
end

