-- ==== Sys2Proof/Machine/State.lean ====
section
/-! DEFINITION. Everything the ZB212 holds, block by block, as plain data, with its reset values; the queue of waiting
commands; and the reasons a step can stop. Each field's docstring names its rule. -/

namespace Sys2Proof.Machine

/-! ## Cadence Generator (1.2) -/

inductive RigState where
  | setup
  | rolling
  | draining
deriving DecidableEq, Repr

inductive Source where
  | free
  | ref
deriving DecidableEq, Repr

inductive RefState where
  | off
  | seeking
  | locked
  | holdover
deriving DecidableEq, Repr

/-- What the next mark is (R4, R9, R24). -/
inductive MarkKind where
  | rolling
  | drain
  | lead
  | setupReference
deriving DecidableEq, Repr

/-- Progress toward lock (R17). -/
structure SeekRecord where
  lastEdge : Option Time
  lastGood : Option Nat
  good : Nat
deriving DecidableEq, Repr

/-- Progress of a locked or held reference (R18 to R22). -/
structure LockRecord where
  /-- The edge attributed to the previous mark. -/
  prevEdge : Option Time
  /-- Consecutive empty windows, 0 to 2. -/
  empty : Nat
  /-- REF_STEP is owed to the next mark. -/
  stepOwed : Bool
deriving DecidableEq, Repr

/-- A speed ramp in progress (R13, R15). -/
structure Ramp where
  r0 : Nat
  r1 : Nat
  k : Nat
  marks : Nat
deriving DecidableEq, Repr

/-- What the event of a mark leaves in its window: the P then held, and its number if it was a rolling mark. -/
structure MarkEvent where
  period : Nat
  number : Option MarkNumber
deriving DecidableEq, Repr

/-- The reference window still to be decided by an edge or by its closing (R18, R19). -/
structure RefWindow where
  /-- The time its mark is scheduled for. -/
  mark : Time
  /-- floor(P/8), with the P held when the window opens. -/
  half : Nat
  /-- Set once the mark's event has occurred. -/
  event : Option MarkEvent
deriving DecidableEq, Repr

/-- The Cadence Generator's state (1.2). -/
structure Cadence where
  rig : RigState
  source : Source
  ref : RefState
  /-- The reference period P. -/
  period : Option Nat
  seek : SeekRecord
  lock : LockRecord
  targetRate : Nat
  currentRate : Nat
  ramp : Option Ramp
  /-- The time of the next mark; its kind is State.markKind. -/
  nextMark : Option Time
  /-- Number and time of the last rolling mark (R4). -/
  lastMark : Option (MarkNumber × Time)
  markCounter : MarkNumber
  take : BitVec 16
  drainCount : Nat
  /-- With source REF, the lead mark of the take has not been issued (R24). -/
  leadOwed : Bool
  /-- The period of the last plan begun (R9). -/
  planPeriod : Nat
  window : Option RefWindow
deriving DecidableEq, Repr

/-! ## Offers and the take frame (3.2, 3.3) -/

inductive Orientation where
  | direct
  | reflected
deriving DecidableEq, Repr

/-- The fields of an offer but its index (3.3). -/
structure SensorMode where
  geometry : Nat
  normal : Nat
  reversed : Option Nat
  blank : Nat
  maxRate : Nat
deriving DecidableEq, Repr

structure Offer where
  index : Nat
  mode : SensorMode
deriving DecidableEq, Repr

/-- A camera's capabilities, as the Agreement Engine holds them (3.3). -/
structure Caps where
  identity : Option (BitVec 32)
  axes : PerAxis Bool
  offers : List Offer
deriving DecidableEq, Repr

/-- The take frame's nine fields (3.2). -/
structure TakeFrame where
  orientation : PerEye Orientation
  /-- The geometry class wanted; 255 for any. -/
  geometry : Nat
  rateNeeded : Nat
  opposedAccepted : Bool
  anchor : Nat
  /-- The window depth W. -/
  depth : Nat
  skewLimit : Nat
  tolerance : PerAxis Nat
deriving DecidableEq, Repr

/-! ## Eye ports (2) -/

inductive EyeState where
  | detached
  | settling
  | listening
  | held
  | proposed
  | agreed
  | running
deriving DecidableEq, Repr

inductive WaitReason where
  | awaitCaps
  | badCaps
  | awaitPeer
  | noCommonMode
  | noMatch
deriving DecidableEq, Repr

/-- The debounce of PRES (R26 to R28): counting high time or low time. -/
inductive PresenceTimer where
  | idle
  | high (count : Nat)
  | low (count : Nat)
deriving DecidableEq, Repr

/-- The content of a RUN directive (R83, 10.3). -/
structure RunDirective where
  echo : BitVec 16
  period : Nat
  exposure : Nat
  offset : Nat
  slip : Nat
  skipped : Bool
  targets : PerAxis (Option Nat)
deriving DecidableEq, Repr

/-- The four directives (2.5). -/
inductive Directive where
  | wait (reason : WaitReason)
  | agree (index : Nat) (reversed : Bool)
  | halt
  | run (d : RunDirective)
deriving DecidableEq, Repr

/-- An eye port's transaction record: the bytes counted in each direction so far (R33). What the bytes in are comes with the
command that ends the transaction (notes/assumptions/5.md). -/
structure EyeTxn where
  served : Bool
  bytesIn : Nat
  bytesOut : Nat
  writeSinceLatch : Bool
deriving DecidableEq, Repr

/-- A directive latched for sending, with its fresh bit (R37). -/
structure EyeImage where
  directive : Directive
  fresh : Bool
deriving DecidableEq, Repr

/-- One eye port (the table before R25). -/
structure EyePort where
  state : EyeState
  enabled : Bool
  /-- The level of the PRES pin. -/
  pres : Bool
  timer : PresenceTimer
  /-- SEL# is low. -/
  selLow : Bool
  txn : Option EyeTxn
  buffer : Option Directive
  fresh : Bool
  image : Option EyeImage
  /-- The receive slot (R43). -/
  slot : Option Report
  /-- The lost-report count (R44). -/
  lost : Nat
  /-- The model's own: the Pairing Engine took the count at the present instant, and it was saturated (R44,
  notes/assumptions/28.md). -/
  takenFull : Bool
  /-- The held CAPS. -/
  caps : Option Caps
  /-- TRIG is high since this instant; none when it is low (R46). -/
  trig : Option Time
  /-- The model's own: the bits SDO has carried since the last falling edge of SEL# (notes/assumptions/10.md). -/
  sent : List Bool
deriving DecidableEq, Repr

/-! ## Agreement Engine (3) -/

/-- The agreement record (R55). -/
structure Agreement where
  index : PerEye Nat
  mode : PerEye SensorMode
  reversed : PerEye Bool
  /-- The eye scans the scene upward. -/
  scansUp : PerEye Bool
  floor : Nat
  ceiling : Nat
  skew : Nat
  opposed : Bool
deriving DecidableEq, Repr

structure AgreementEngine where
  frame : TakeFrame
  agreement : Option Agreement
  /-- Refused pairs (L offer index, R offer index). -/
  exclusion : List (Nat × Nat)
  reason : PerEye WaitReason
deriving DecidableEq, Repr

/-! ## Lens Table Store (5) -/

/-- One axis of a lens table (R94). -/
structure AxisTable where
  slew : Nat
  /-- Breakpoints (demand, count), in order of demand. -/
  points : List (Nat × Nat)
deriving DecidableEq, Repr

structure LensTable where
  identity : BitVec 32
  axes : PerAxis (Option AxisTable)
deriving DecidableEq, Repr

/-- A table with the image it was taken from (R94). -/
structure LensImage where
  table : LensTable
  image : List Byte
deriving DecidableEq, Repr

/-- A change accepted during a take and not yet applied (R101). -/
inductive PendingOp where
  | commit (copy : LensImage)
  | discard
deriving DecidableEq, Repr

/-- One of the eight table slots: VALID when it has contents. -/
structure LensSlot where
  contents : Option LensImage
  pending : Option PendingOp
  bad : Bool
deriving DecidableEq, Repr

inductive StoreState where
  | loading
  | ready
  | saving
deriving DecidableEq, Repr

/-- The save in progress (R107). -/
structure SaveRecord where
  slot : Nat
  image : List Byte
  accepted : Time
deriving DecidableEq, Repr

/-- A place of the non-volatile memory: an image, or marked unfinished (R109). -/
inductive NvPlace where
  | image (bytes : List Byte)
  | unfinished
deriving DecidableEq, Repr

structure LensStore where
  slots : List LensSlot
  staging : List Byte
  store : StoreState
  saving : Option SaveRecord
  binding : PerEye (Option Nat)
  nv : List NvPlace
deriving DecidableEq, Repr

/-! ## Lens Match Engine (6) -/

structure LensMatch where
  demand : PerAxis (Option Nat)
  previous : PerEye (PerAxis (Option Nat))
  clearMark : PerEye Bool
deriving DecidableEq, Repr

/-! ## Trigger Planner (4) -/

inductive ShutterMode where
  | angle
  | time
deriving DecidableEq, Repr

/-- The eye flags a plan gives (R122). -/
structure PlanFlags where
  uncalibrated : Bool
  lag : Bool
  demandClamped : Bool
deriving DecidableEq, Repr

/-- What a plan reads of one eye's lens (R117): its bound table, its motorised axes, its previous targets. -/
structure EyeLens where
  table : Option LensTable
  motorised : PerAxis Bool
  previous : PerAxis (Option Nat)
deriving DecidableEq, Repr

/-- What a plan takes at its start (R68). -/
structure Snapshot where
  mark : MarkNumber
  /-- P', the period of the mark being prepared. -/
  period : Nat
  rateClamped : Bool
  readout : PerEye Nat
  blank : PerEye Nat
  scansUp : PerEye Bool
  anchor : Nat
  opposed : Bool
  shutterMode : ShutterMode
  shutterValue : Nat
  demand : PerAxis (Option Nat)
  /-- X, the expected time of the mark being prepared (R79). -/
  expected : Time
  lastReadout : PerEye (Option Time)
  lens : PerEye EyeLens
deriving DecidableEq, Repr

structure PlanInProgress where
  snapshot : Snapshot
  included : PerEye Bool
  departed : PerEye Bool
deriving DecidableEq, Repr

/-- A completed plan (R83). -/
structure Plan where
  mark : MarkNumber
  period : Nat
  exposure : Nat
  offset : PerEye Nat
  slip : Nat
  skipped : Bool
  targets : PerEye (PerAxis (Option Nat))
  /-- p(0) and p(1,024) (R82). -/
  p0 : Int
  p1024 : Int
  skew : Nat
  included : PerEye Bool
  departed : PerEye Bool
  rateClamped : Bool
  opposed : Bool
  flags : PerEye PlanFlags
deriving DecidableEq, Repr

/-- A pulse laid and not yet fired or dropped (R84, R85). -/
structure Pulse where
  mark : MarkNumber
  time : Time
deriving DecidableEq, Repr

structure TriggerPlanner where
  shutterMode : ShutterMode
  shutterValue : Nat
  inProgress : Option PlanInProgress
  prepared : Option Plan
  lastReadout : PerEye (Option Time)
  triggerNumber : PerEye (BitVec 16)
  pulses : PerEye (List Pulse)
deriving DecidableEq, Repr

/-! ## Pairing Engine (7) -/

inductive PartState where
  | triggerPending
  | awaited
  | absent
  | reported
  | missing
deriving DecidableEq, Repr

/-- What a matched FRAME leaves in its eye part (R136). -/
structure KeptReport where
  echo : BitVec 16
  delay : Nat
  status : Byte
  counts : PerAxis (Option Nat)
deriving DecidableEq, Repr

structure EyePart where
  state : PartState
  triggered : Bool
  trigger : BitVec 16
  offset : Nat
  flags : PlanFlags
  lost : Bool
  report : Option KeptReport
  stale : Bool
deriving DecidableEq, Repr

/-- The comparison of one axis (R126). -/
structure LensResult where
  compared : Bool
  error : Nat
  mismatch : Bool
deriving DecidableEq, Repr

/-- One open slot of the pair window (7.2). -/
structure PairSlot where
  mark : MarkNumber
  time : Time
  take : BitVec 16
  age : Nat
  period : Nat
  exposure : Nat
  slip : Nat
  skipped : Bool
  p0 : Int
  p1024 : Int
  predicted : Nat
  rateClamped : Bool
  opposed : Bool
  holdover : Bool
  refStep : Bool
  skew : Bool
  anchorSkew : Int
  worstSkew : Nat
  lens : PerAxis LensResult
  parts : PerEye EyePart
deriving DecidableEq, Repr

/-- An entry of a trigger list (R134). -/
structure TriggerEntry where
  trigger : BitVec 16
  mark : MarkNumber
deriving DecidableEq, Repr

structure Pairing where
  window : List PairSlot
  triggers : PerEye (List TriggerEntry)
deriving DecidableEq, Repr

/-! ## Pair Queue and pair port (8) -/

inductive RecordKind where
  | paired
  | single
  | orphan
  | skipped
deriving DecidableEq, Repr

inductive EyeOutcome where
  | reported
  | absent
  | missingTriggered
  | missingUntriggered
deriving DecidableEq, Repr

/-- An eye part of a pair record (R149). -/
structure RecordPart where
  outcome : EyeOutcome
  trigger : BitVec 16
  offset : Nat
  delay : Nat
  status : Byte
  lostReports : Nat
  stale : Bool
  flags : PlanFlags
  lost : Bool
deriving DecidableEq, Repr

/-- A pair record (R148). -/
structure PairRecord where
  kind : RecordKind
  skew : Bool
  lensMismatch : Bool
  rateClamped : Bool
  holdover : Bool
  refStep : Bool
  precededByLoss : Bool
  opposed : Bool
  take : BitVec 16
  mark : MarkNumber
  time : Time
  period : Nat
  exposure : Nat
  slip : Nat
  predicted : Nat
  anchorSkew : Int
  worstSkew : Nat
  parts : PerEye RecordPart
  lens : PerAxis LensResult
deriving DecidableEq, Repr

/-- A record as the pair queue holds it: with the check computed at its acceptance (R153). -/
structure QueuedRecord where
  record : PairRecord
  check : Nat
deriving DecidableEq, Repr

/-- The read transaction in progress: the record latched, none for the EMPTY record (R157). -/
structure PairRead where
  latched : Option QueuedRecord
  bytesOut : Nat
deriving DecidableEq, Repr

structure PairQueue where
  queue : List QueuedRecord
  precededByLoss : Bool
  read : Option PairRead
  /-- P_SEL# is low. -/
  selLow : Bool
  /-- The model's own: the bits SDO has carried since the last falling edge of P_SEL#. -/
  sent : List Bool
deriving DecidableEq, Repr

/-! ## Rig Control Port and resets (9) -/

inductive ResponseCode where
  | done
  | clamped
  | state
  | range
  | busy
  | badTable
  | dupLens
  | format
  | unknown
  | none
deriving DecidableEq, Repr

structure Response where
  code : ResponseCode
  echo : Byte
  body : List Byte
deriving DecidableEq, Repr

/-- The eight notices (9.4). -/
inductive Notice where
  | eyeChange
  | noCommonMode
  | storeDone
  | storeBad
  | queueOverflow
  | refLost
  | refBack
  | resetSeen
deriving DecidableEq, Repr

/-- The rig control port's transaction record: the response latched, and the bytes counted in each direction so far. -/
structure RcpTxn where
  response : Response
  bytesIn : Nat
  bytesOut : Nat
deriving DecidableEq, Repr

/-- The reset-cause record (R176). -/
structure ResetCause where
  power : Bool
  pin : Bool
  request : Bool
deriving DecidableEq, Repr

structure RigPort where
  txn : Option RcpTxn
  response : Response
  /-- The notice set, coded as in 10.7. -/
  notices : BitVec 8
  cause : ResetCause
  /-- C_SEL# is low. -/
  selLow : Bool
  /-- The model's own: the bits C_SDO has carried since the last falling edge of C_SEL#. -/
  sent : List Bool
deriving DecidableEq, Repr

/-- The resets in force (9.6), with the ticks counted of those that end by a count. -/
structure Resets where
  powerOn : Option Nat
  pin : Bool
  request : Option Nat
deriving DecidableEq, Repr

/-! ## The part -/

/-- The whole part, and the commands that wait for it. -/
structure State where
  timebase : Time
  cg : Cadence
  eyes : PerEye EyePort
  ae : AgreementEngine
  tp : TriggerPlanner
  lts : LensStore
  lme : LensMatch
  pe : Pairing
  pq : PairQueue
  rcp : RigPort
  resets : Resets
  /-- The commands that wait, first in, first out. -/
  pending : List Instr
deriving DecidableEq, Repr

/-- No command ends in a fault: the data book gives every command an outcome and the part goes on (INVENTORY.md,
Faults). The type is empty, so no one can raise one; that is safe. -/
inductive Fault where
deriving DecidableEq, Repr

/-- Why a command has no meaning. -/
inductive Refusal where
  /-- Kept for an arm of exec with no meaning yet. No arm raises it: every row has its meaning. Safe. -/
  | notModelled (mnemonic : String)
deriving DecidableEq, Repr

/-! ## Reset values -/

/-- R2. -/
def Cadence.atReset : Cadence where
  rig := .setup
  source := .free
  ref := .off
  period := none
  seek := ⟨none, none, 0⟩
  lock := ⟨none, 0, false⟩
  targetRate := 24000
  currentRate := 24000
  ramp := none
  nextMark := none
  lastMark := none
  markCounter := 0
  take := 0
  drainCount := 0
  leadOwed := false
  planPeriod := 0
  window := none

/-- R25, with the levels of the input pins, and what SDO has carried, kept as they stand. -/
def EyePort.atReset (pres selLow : Bool) (sent : List Bool) : EyePort where
  state := .detached
  enabled := true
  pres := pres
  timer := .idle
  selLow := selLow
  txn := none
  buffer := none
  fresh := false
  image := none
  slot := none
  lost := 0
  takenFull := false
  caps := none
  trig := none
  sent := sent

/-- The take frame's reset values (3.2). -/
def TakeFrame.atReset : TakeFrame where
  orientation := ⟨.direct, .reflected⟩
  geometry := 255
  rateNeeded := 24000
  opposedAccepted := false
  anchor := 512
  depth := 4
  skewLimit := 50000
  tolerance := .all 10

/-- R47. -/
def AgreementEngine.atReset : AgreementEngine where
  frame := .atReset
  agreement := none
  exclusion := []
  reason := .both .awaitCaps

/-- R67. -/
def TriggerPlanner.atReset : TriggerPlanner where
  shutterMode := .angle
  shutterValue := 18000
  inProgress := none
  prepared := none
  lastReadout := .both none
  triggerNumber := .both 0
  pulses := .both []

/-- R93: the non-volatile places are kept. -/
def LensStore.atReset (nv : List NvPlace) : LensStore where
  slots := List.replicate 8 ⟨none, none, false⟩
  staging := emptyStaging
  store := .loading
  saving := none
  binding := .both none
  nv := nv

/-- R114. -/
def LensMatch.atReset : LensMatch where
  demand := .all none
  previous := .both (.all none)
  clearMark := .both false

/-- R130. -/
def Pairing.atReset : Pairing where
  window := []
  triggers := .both []

/-- R152, with the level of P_SEL#, and what SDO has carried, kept. -/
def PairQueue.atReset (selLow : Bool) (sent : List Bool) : PairQueue where
  queue := []
  precededByLoss := false
  read := none
  selLow := selLow
  sent := sent

/-- R161, with the reset-cause record, the level of C_SEL#, and what C_SDO has carried, kept. -/
def RigPort.atReset (cause : ResetCause) (selLow : Bool) (sent : List Bool) : RigPort where
  txn := none
  response := ⟨.none, 0, []⟩
  notices := 0
  cause := cause
  selLow := selLow
  sent := sent

/-- The part right after the release of a power-on reset (R172, R175): every block at its reset value, the load
begun, RESET_SEEN alone in the notice set, POWER alone in the reset-cause record. The non-volatile memory is as shipped
(R93); no camera is connected and no port is selected (notes/assumptions/7.md). -/
def State.reset : State where
  timebase := 0
  cg := .atReset
  eyes := .both (.atReset false false [])
  ae := .atReset
  tp := .atReset
  lts := .atReset (List.replicate 8 (.image emptyImage))
  lme := .atReset
  pe := .atReset
  pq := .atReset false []
  rcp := { RigPort.atReset ⟨true, false, false⟩ false [] with notices := 0x80 }
  resets := ⟨none, false, none⟩
  pending := []

end Sys2Proof.Machine
end

