-- ==== Sys2Proof/Machine/Operands.lean ====
section
/-! DEFINITION. Every operand form of the part's records: reading a report (R40, R178), a request (R163, R180), a CAPS
(R49), a take frame (R48), the coded fields (10.7) and a lens slot image (R98, R110, R182). -/

namespace Sys2Proof.Machine

/-- The number in `k` bytes of a body from an offset. -/
def field (body : List Byte) (offset k : Nat) : Nat := fromBe ((body.drop offset).take k)

/-- The byte of a body at an offset. -/
def byteAt (body : List Byte) (offset : Nat) : Byte := body.getD offset 0

/-! ## Coded fields (10.1, 10.7) -/

/-- The axes an axis-set byte names; bits 3 to 7 are not read. -/
def axisSet (b : Byte) : PerAxis Bool := ⟨b.getLsbD 0, b.getLsbD 1, b.getLsbD 2⟩

/-- The axis-set byte has no undefined bit (10.1). -/
def axisSetDefined (b : Byte) : Bool := decide (b.toNat < 8)

/-- A presence byte or yes/no field: 00 or 01. -/
def yesNo (b : Byte) : Option Bool := if b = 0 then some false else if b = 1 then some true else none

/-- The eye field of PORT: 00 L, 01 R. -/
def eyeCode (b : Byte) : Option Eye := if b = 0 then some .left else if b = 1 then some .right else none

/-- An orientation field: 00 DIRECT, 01 REFLECTED. -/
def orientationCode (b : Byte) : Option Orientation :=
  if b = 0 then some .direct else if b = 1 then some .reflected else none

/-- The source field: 00 FREE, 01 REF. -/
def sourceCode (b : Byte) : Option Source := if b = 0 then some .free else if b = 1 then some .ref else none

/-- The shutter mode field: 00 ANGLE, 01 TIME. -/
def shutterCode (b : Byte) : Option ShutterMode := if b = 0 then some .angle else if b = 1 then some .time else none

/-! ## Reports -/

/-- An offer block (10.2). -/
def readOffer (b : List Byte) : RawOffer where
  index := byteAt b 0
  geometry := byteAt b 1
  normal := BitVec.ofNat 32 (field b 2 4)
  reversedPresent := byteAt b 6
  reversed := BitVec.ofNat 32 (field b 7 4)
  blank := BitVec.ofNat 32 (field b 11 4)
  maxRate := BitVec.ofNat 32 (field b 15 4)

/-- A number of offer blocks of 19 bytes each. -/
def readOffers : Nat → List Byte → List RawOffer
  | 0, _ => []
  | k + 1, body => readOffer (body.take 19) :: readOffers k (body.drop 19)

/-- The body of a CAPS whose length is 6 plus a multiple of 19 (R178). -/
def readCaps (body : List Byte) : RawCaps where
  identityPresent := byteAt body 0
  identity := BitVec.ofNat 32 (field body 1 4)
  axes := byteAt body 5
  offers := readOffers ((body.length - 6) / 19) (body.drop 6)

/-- The body of a FRAME (10.2). -/
def readFrameBody (body : List Byte) : RawFrame where
  trigger := BitVec.ofNat 16 (field body 0 2)
  echo := BitVec.ofNat 16 (field body 2 2)
  delay := BitVec.ofNat 16 (field body 4 2)
  status := byteAt body 6
  axes := byteAt body 7
  focus := BitVec.ofNat 16 (field body 8 2)
  iris := BitVec.ofNat 16 (field body 10 2)
  zoom := BitVec.ofNat 16 (field body 12 2)

/-- The report a kind and a body spell, when the kind is a report kind and allows the length (R40, R178). -/
def reportOf (kind : Byte) (body : List Byte) : Option Report :=
  if kind = 0x21 then
    if 6 ≤ body.length ∧ body.length ≤ 234 ∧ (body.length - 6) % 19 = 0 then some (.caps (readCaps body)) else none
  else if kind = 0x22 then if body.length = 1 then some (.accept (byteAt body 0)) else none
  else if kind = 0x23 then if body.length = 1 then some (.refuse (byteAt body 0)) else none
  else if kind = 0x24 then if body.length = 14 then some (.frame (readFrameBody body)) else none
  else if kind = 0x2F then if body.length = 0 then some .idle else none
  else none

/-- The report the eye port accepts from the bytes clocked in; none when R40 discards it. -/
def readReport (bytes : List Byte) : Option Report :=
  match readFrame bytes with
  | .bad => none
  | .record kind body => reportOf kind body

/-- The counts a FRAME carries: one for each axis of its count axis set, undefined bits ignored (R177, R178). -/
def frameCounts (f : RawFrame) : PerAxis (Option Nat) where
  focus := if (axisSet f.axes).focus then some f.focus.toNat else none
  iris := if (axisSet f.axes).iris then some f.iris.toNat else none
  zoom := if (axisSet f.axes).zoom then some f.zoom.toNat else none

/-! ## CAPS contents (R49) -/

/-- An offer within the ranges of 3.3; none when a field is out of range. -/
def judgeOffer (o : RawOffer) : Option Offer :=
  match yesNo o.reversedPresent with
  | none => none
  | some present =>
    if o.index.toNat ≤ 5 ∧ o.geometry.toNat ≤ 254 ∧
        1000 ≤ o.normal.toNat ∧ o.normal.toNat ≤ 10000000 ∧
        (present = true → 1000 ≤ o.reversed.toNat ∧ o.reversed.toNat ≤ 10000000) ∧
        o.blank.toNat ≤ 1000000 ∧ 1000 ≤ o.maxRate.toNat ∧ o.maxRate.toNat ≤ 240000 then
      some ⟨o.index.toNat, ⟨o.geometry.toNat, o.normal.toNat,
        if present then some o.reversed.toNat else none, o.blank.toNat, o.maxRate.toNat⟩⟩
    else none

/-- Every offer of a list, or none if one is out of range. -/
def judgeOffers : List RawOffer → Option (List Offer)
  | [] => some []
  | o :: os =>
    match judgeOffer o, judgeOffers os with
    | some a, some rest => some (a :: rest)
    | _, _ => none

/-- The capabilities a CAPS states, when it is valid: 1 to 6 offers, no index twice, every field in range and every
coded field a code (R49, R178). -/
def judgeCaps (c : RawCaps) : Option Caps :=
  match yesNo c.identityPresent, judgeOffers c.offers with
  | some present, some offers =>
    if 1 ≤ offers.length ∧ offers.length ≤ 6 ∧ (offers.map Offer.index).Nodup ∧ axisSetDefined c.axes then
      some ⟨if present then some c.identity else none, axisSet c.axes, offers⟩
    else none
  | _, _ => none

/-! ## Requests -/

/-- What the rig control port finds in the bytes of a transaction (R163). -/
inductive Verdict where
  | collection
  | format (echo : Byte)
  | unknown (echo : Byte)
  | request (r : Request)
deriving DecidableEq, Repr

/-- A request of a kind whose body length is fixed, or FORMAT. -/
def fixedBody (kind : Byte) (n : Nat) (body : List Byte) (r : Request) : Verdict :=
  if body.length = n then .request r else .format kind

/-- The body of a PROFILE (10.4). -/
def readProfile (body : List Byte) : RawProfile where
  orientationL := byteAt body 0
  orientationR := byteAt body 1
  geometry := byteAt body 2
  rateNeeded := BitVec.ofNat 32 (field body 3 4)
  opposed := byteAt body 7
  anchor := BitVec.ofNat 16 (field body 8 2)
  depth := byteAt body 10
  skewLimit := BitVec.ofNat 32 (field body 11 4)
  tolFocus := BitVec.ofNat 16 (field body 15 2)
  tolIris := BitVec.ofNat 16 (field body 17 2)
  tolZoom := BitVec.ofNat 16 (field body 19 2)

/-- The request a kind and a body spell; FORMAT for a length the kind does not allow, UNKNOWN for no request kind
(R163, 10.4). -/
def requestOf (kind : Byte) (body : List Byte) : Verdict :=
  if kind = 0x61 then fixedBody kind 21 body (.profile (readProfile body))
  else if kind = 0x62 then fixedBody kind 1 body (.source (byteAt body 0))
  else if kind = 0x63 then
    fixedBody kind 6 body (.rate (BitVec.ofNat 32 (field body 0 4)) (BitVec.ofNat 16 (field body 4 2)))
  else if kind = 0x64 then fixedBody kind 5 body (.shutter (byteAt body 0) (BitVec.ofNat 32 (field body 1 4)))
  else if kind = 0x65 then
    fixedBody kind 7 body (.demand (byteAt body 0) (BitVec.ofNat 16 (field body 1 2))
      (BitVec.ofNat 16 (field body 3 2)) (BitVec.ofNat 16 (field body 5 2)))
  else if kind = 0x66 then fixedBody kind 0 body .roll
  else if kind = 0x67 then fixedBody kind 0 body .cut
  else if kind = 0x68 then fixedBody kind 2 body (.port (byteAt body 0) (byteAt body 1))
  else if kind = 0x69 then fixedBody kind 0 body .stageReset
  else if kind = 0x6A then
    if 3 ≤ body.length ∧ body.length ≤ 66 then .request (.stageWrite (BitVec.ofNat 16 (field body 0 2)) (body.drop 2))
    else .format kind
  else if kind = 0x6B then fixedBody kind 1 body (.commit (byteAt body 0))
  else if kind = 0x6C then fixedBody kind 1 body (.discard (byteAt body 0))
  else if kind = 0x6D then fixedBody kind 1 body (.save (byteAt body 0))
  else if kind = 0x6E then
    fixedBody kind 4 body (.readSlot (byteAt body 0) (BitVec.ofNat 16 (field body 1 2)) (byteAt body 3))
  else if kind = 0x6F then fixedBody kind 0 body .query
  else if kind = 0x70 then fixedBody kind 2 body (.clearNotices (BitVec.ofNat 16 (field body 0 2)))
  else if kind = 0x71 then fixedBody kind 0 body .reset
  else .unknown kind

/-- The judgement of a rig control transaction, in the order of R163. -/
def judgeTransaction (bytes : List Byte) : Verdict :=
  if bytes.all (· == 0) then .collection
  else
    match readFrame bytes with
    | .bad => .format (byteAt bytes 0)
    | .record kind body => requestOf kind body

/-! ## The take frame (R48, R180) -/

/-- The take frame a PROFILE states, when every field lies in its range. -/
def readTakeFrame (p : RawProfile) : Option TakeFrame :=
  match orientationCode p.orientationL, orientationCode p.orientationR, yesNo p.opposed with
  | some l, some r, some opposed =>
    if 1000 ≤ p.rateNeeded.toNat ∧ p.rateNeeded.toNat ≤ 240000 ∧ p.anchor.toNat ≤ 1024 ∧
        2 ≤ p.depth.toNat ∧ p.depth.toNat ≤ 8 ∧ p.skewLimit.toNat ≤ 10000000 then
      some ⟨⟨l, r⟩, p.geometry.toNat, p.rateNeeded.toNat, opposed, p.anchor.toNat, p.depth.toNat, p.skewLimit.toNat,
        ⟨p.tolFocus.toNat, p.tolIris.toNat, p.tolZoom.toNat⟩⟩
    else none
  | _, _, _ => none

/-! ## Lens slot images (R98, R110, R182) -/

/-- Strictly increasing. -/
def increasing : List Nat → Bool
  | a :: b :: rest => decide (a < b) && increasing (b :: rest)
  | _ => true

/-- Strictly decreasing. -/
def decreasing : List Nat → Bool
  | a :: b :: rest => decide (b < a) && decreasing (b :: rest)
  | _ => true

/-- The tests of one axis: slew limit 1 to 65,535, 2 to 32 breakpoints, demands strictly increasing, counts strictly
monotonic (R94, R98). -/
def AxisTable.wf (t : AxisTable) : Bool :=
  decide (1 ≤ t.slew ∧ t.slew ≤ 65535 ∧ 2 ≤ t.points.length ∧ t.points.length ≤ 32) &&
    increasing (t.points.map Prod.fst) &&
    (increasing (t.points.map Prod.snd) || decreasing (t.points.map Prod.snd))

/-- A number of breakpoints, and the bytes after them. -/
def readPoints : Nat → List Byte → Option (List (Nat × Nat) × List Byte)
  | 0, rest => some ([], rest)
  | n + 1, a :: b :: c :: d :: rest =>
    match readPoints n rest with
    | some (points, more) => some ((fromBe [a, b], fromBe [c, d]) :: points, more)
    | none => none
  | _ + 1, _ => none

/-- An axis block, when the axis set names the axis, and the bytes after it. The count must lie from 2 to 32 (R98). -/
def readAxis (present : Bool) (bytes : List Byte) : Option (Option AxisTable × List Byte) :=
  if present then
    match bytes with
    | s0 :: s1 :: n :: rest =>
      if 2 ≤ n.toNat ∧ n.toNat ≤ 32 then
        match readPoints n.toNat rest with
        | some (points, more) => some (some ⟨fromBe [s0, s1], points⟩, more)
        | none => none
      else none
    | _ => none
  else some (none, bytes)

/-- An axis is absent or passes its tests. -/
def axisOk : Option AxisTable → Bool
  | none => true
  | some t => t.wf

/-- The header and axis blocks of an image, and the bytes after them; the axis set is judged before any block (R182). -/
def readTable (bytes : List Byte) : Option (LensTable × List Byte) :=
  match bytes with
  | i0 :: i1 :: i2 :: i3 :: a :: rest =>
    if axisSetDefined a ∧ a ≠ 0 then
      match readAxis (axisSet a).focus rest with
      | none => none
      | some (focus, rest1) =>
        match readAxis (axisSet a).iris rest1 with
        | none => none
        | some (iris, rest2) =>
          match readAxis (axisSet a).zoom rest2 with
          | none => none
          | some (zoom, rest3) => some (⟨BitVec.ofNat 32 (fromBe [i0, i1, i2, i3]), ⟨focus, iris, zoom⟩⟩, rest3)
    else none
  | _ => none

/-- The table and image of a well-formed image, read from byte 0, exactly as long as its header and breakpoint counts
give; none when a test of R98 fails. -/
def readImage (bytes : List Byte) : Option LensImage :=
  match readTable bytes with
  | none => none
  | some (table, rest) =>
    let span := bytes.length - rest.length
    if 2 ≤ rest.length ∧ fromBe (rest.take 2) = recordCheck (bytes.take span) ∧
        axisOk table.axes.focus ∧ axisOk table.axes.iris ∧ axisOk table.axes.zoom then
      some ⟨table, bytes.take (span + 2)⟩
    else none

/-- What the load finds in a non-volatile place (R110). -/
inductive LoadVerdict where
  | empty
  | bad
  | valid (contents : LensImage)
deriving DecidableEq, Repr

/-- The judgement of one place, before the identities are compared. -/
def judgePlace : NvPlace → LoadVerdict
  | .unfinished => .bad
  | .image bytes =>
    if byteAt bytes 4 = 0 ∧ 7 ≤ bytes.length ∧ field bytes 5 2 = recordCheck (bytes.take 5) then .empty
    else
      match readImage bytes with
      | some contents => .valid contents
      | none => .bad

end Sys2Proof.Machine
end

