-- ==== Sys2Proof/Machine/Flags.lean ====
section
/-! DEFINITION. Every flag, code and byte the part makes: notices, axis sets, directives (R179), responses (R165,
R180), the QUERY contents (R171), pair records (R181) and the EMPTY record (R159), and the output pins that follow from
the state. -/

namespace Sys2Proof.Machine

/-- A byte from its bits, bit 0 first. -/
def bits (bs : List Bool) : Byte := BitVec.ofNat 8 (bs.foldr (fun b n => (if b then 1 else 0) + 2 * n) 0)

/-- 00 or 01. -/
def flagByte (b : Bool) : Byte := if b then 1 else 0

/-- The bit of a notice in the notice set (10.7). -/
def Notice.bit : Notice → Nat
  | .eyeChange => 0
  | .noCommonMode => 1
  | .storeDone => 2
  | .storeBad => 3
  | .queueOverflow => 4
  | .refLost => 5
  | .refBack => 6
  | .resetSeen => 7

/-- The notice set with one notice added (R168). -/
def addNotice (set : BitVec 8) (n : Notice) : BitVec 8 := set ||| (1#8 <<< n.bit)

/-- A notice is in the set. -/
def hasNotice (set : BitVec 8) (n : Notice) : Bool := set.getLsbD n.bit

/-- An axis set as a byte (10.1). -/
def axisByte (a : PerAxis Bool) : Byte := bits [a.focus, a.iris, a.zoom]

/-! ## Codes (10.7) -/

def WaitReason.code : WaitReason → Byte
  | .awaitCaps => 1
  | .badCaps => 2
  | .awaitPeer => 3
  | .noCommonMode => 4
  | .noMatch => 5

def EyeState.code : EyeState → Byte
  | .detached => 0
  | .settling => 1
  | .listening => 2
  | .held => 3
  | .proposed => 4
  | .agreed => 5
  | .running => 6

def RigState.code : RigState → Byte
  | .setup => 0
  | .rolling => 1
  | .draining => 2

def Source.code : Source → Byte
  | .free => 0
  | .ref => 1

def RefState.code : RefState → Byte
  | .off => 0
  | .seeking => 1
  | .locked => 2
  | .holdover => 3

def StoreState.code : StoreState → Byte
  | .ready => 0
  | .loading => 1
  | .saving => 2

def ShutterMode.code : ShutterMode → Byte
  | .angle => 0
  | .time => 1

def ResponseCode.code : ResponseCode → Byte
  | .done => 1
  | .clamped => 2
  | .state => 3
  | .range => 4
  | .busy => 5
  | .badTable => 6
  | .dupLens => 7
  | .format => 8
  | .unknown => 9
  | .none => 10

def EyeOutcome.code : EyeOutcome → Byte
  | .reported => 1
  | .absent => 2
  | .missingTriggered => 3
  | .missingUntriggered => 4

def RecordKind.code : RecordKind → Byte
  | .paired => 0xA1
  | .single => 0xA2
  | .orphan => 0xA3
  | .skipped => 0xA4

/-! ## Directives (10.3) -/

/-- The control byte: bit 7 the fresh bit, bit 6 in AGREE, bit 0 in a RUN whose mark is skipped. -/
def controlByte (fresh agree skipped : Bool) : Byte :=
  bits [skipped, false, false, false, false, false, agree, fresh]

/-- The record the eye port builds from a directive and its fresh bit (R179). -/
def directiveRecord (d : Directive) (fresh : Bool) : List Byte :=
  match d with
  | .wait reason => frameRecord 0x41 [controlByte fresh false false, reason.code]
  | .agree index reversed =>
    frameRecord 0x42 [controlByte fresh true false, BitVec.ofNat 8 index, flagByte reversed]
  | .halt => frameRecord 0x43 [controlByte fresh false false]
  | .run r =>
    frameRecord 0x44
      ([controlByte fresh false r.skipped] ++ be 2 r.echo.toNat ++ be 4 r.period ++ be 4 r.exposure ++ be 4 r.offset ++
        be 4 r.slip ++ [axisByte (r.targets.map Option.isSome)] ++ be 2 (r.targets.focus.getD 0) ++
        be 2 (r.targets.iris.getD 0) ++ be 2 (r.targets.zoom.getD 0))

/-- The bytes of a transmit image; none when there is no image, so SDO carries 0x00 (R35). -/
def imageBytes : Option EyeImage → List Byte
  | none => []
  | some i => directiveRecord i.directive i.fresh

/-! ## Responses (10.4) -/

/-- The response record (R180). -/
def responseRecord (r : Response) : List Byte := frameRecord 0x80 ([r.code.code, r.echo] ++ r.body)

/-! ## Pair records (10.5) -/

def RecordPart.flagByte (p : RecordPart) : Byte :=
  bits [p.stale, p.flags.uncalibrated, p.lost, p.flags.lag, p.flags.demandClamped]

/-- The 12 bytes of an eye part. -/
def RecordPart.bytes (p : RecordPart) : List Byte :=
  [p.outcome.code] ++ be 2 p.trigger.toNat ++ be 4 p.offset ++ be 2 p.delay ++
    [p.status, BitVec.ofNat 8 p.lostReports, p.flagByte]

def PairRecord.flagByte (r : PairRecord) : Byte :=
  bits [r.skew, r.lensMismatch, r.rateClamped, r.holdover, r.refStep, r.precededByLoss, r.opposed]

/-- Byte 71: bits 0 to 2 compared, bits 4 to 6 mismatch. -/
def lensIndications (l : PerAxis LensResult) : Byte :=
  bits [l.focus.compared, l.iris.compared, l.zoom.compared, false, l.focus.mismatch, l.iris.mismatch, l.zoom.mismatch]

/-- The 72 bytes of a pair record before its check. -/
def PairRecord.bytes (r : PairRecord) : List Byte :=
  [r.kind.code, 70, r.flagByte] ++ be 2 r.take.toNat ++ be 6 r.mark.toNat ++ be 6 r.time.toNat ++ be 4 r.period ++
    be 4 r.exposure ++ be 4 r.slip ++ be 4 r.predicted ++ beSigned 4 r.anchorSkew ++ be 4 r.worstSkew ++
    r.parts.left.bytes ++ r.parts.right.bytes ++ be 2 r.lens.focus.error ++ be 2 r.lens.iris.error ++
    be 2 r.lens.zoom.error ++ [lensIndications r.lens]

/-- The 74 bytes of a queued record, with the check computed at its acceptance (R153). -/
def QueuedRecord.bytes (q : QueuedRecord) : List Byte := q.record.bytes ++ be 2 q.check

/-- The EMPTY record: kind A0, 70 body bytes of 00 and a correct check (R159, R181). -/
def emptyRecord : List Byte := frameRecord 0xA0 (zeros 70)

/-- The bytes a read transaction sends (R157). -/
def latchedBytes : Option QueuedRecord → List Byte
  | none => emptyRecord
  | some q => q.bytes

/-! ## Resets and output pins -/

/-- A reset of some kind is in force (R175). -/
def Resets.inForce (r : Resets) : Bool := r.powerOn.isSome || r.pin || r.request.isSome

/-- The part is held in reset. -/
def State.isHeld (s : State) : Bool := s.resets.inForce

/-- TRIG is high (R46). -/
def EyePort.trigHigh (p : EyePort) : Bool := p.trig.isSome

/-- ATTN# is high: the notice set is empty, or a reset is in force (R161, R168). -/
def State.attnHigh (s : State) : Bool := s.isHeld || s.rcp.notices == 0

/-- The level of an SDO line: low between transactions; in one, the next bit of the record going out, and low beyond it or
where none goes out (R33, R34, R39, R157, R162). -/
def sdoLevel (selLow : Bool) (record : List Byte) (sent : List Bool) : Bool :=
  selLow && (toBits record).getD sent.length false

/-- SDO of an eye port is high. -/
def EyePort.sdoHigh (p : EyePort) : Bool := sdoLevel p.selLow (imageBytes p.image) p.sent

/-- C_SDO is high. -/
def RigPort.sdoHigh (r : RigPort) : Bool :=
  sdoLevel r.selLow ((r.txn.map fun t => responseRecord t.response).getD []) r.sent

/-- SDO of the pair port is high. -/
def PairQueue.sdoHigh (q : PairQueue) : Bool :=
  sdoLevel q.selLow ((q.read.map fun r => latchedBytes r.latched).getD []) q.sent

/-- RDY# is high: the queue is empty (R156), or a reset is in force (R175, which empties it). -/
def State.rdyHigh (s : State) : Bool := s.pq.queue.isEmpty

/-! ## QUERY contents (R171, 10.4) -/

/-- The agreed ceiling in force (R12, R66). -/
def AgreementEngine.ceiling (a : AgreementEngine) : Nat := (a.agreement.map Agreement.ceiling).getD Config.freeCeiling

/-- The readout floor, reported as 0 when there is no agreement (R66). -/
def AgreementEngine.floor (a : AgreementEngine) : Nat := (a.agreement.map Agreement.floor).getD 0

/-- The effective rate QUERY reports (R24, R171). -/
def Cadence.effectiveRate (c : Cadence) : Nat :=
  match c.source with
  | .free => c.currentRate
  | .ref => (c.period.map perTick).getD 0

/-- Eye state, port enable and WAIT reason of one eye. -/
def queryEye (p : EyePort) (reason : WaitReason) : List Byte :=
  [p.state.code, flagByte p.enabled,
    match p.state with
    | .listening => reason.code
    | .held => reason.code
    | _ => 0]

/-- The 18 bytes of a stored offer. -/
def queryMode (m : SensorMode) : List Byte :=
  [BitVec.ofNat 8 m.geometry] ++ be 4 m.normal ++ [flagByte m.reversed.isSome] ++ be 4 (m.reversed.getD 0) ++
    be 4 m.blank ++ be 4 m.maxRate

/-- Bytes 22 to 65: the agreement record, or presence 00 and zeros. -/
def queryAgreement : Option Agreement → List Byte
  | none => zeros 44
  | some a =>
    [1, BitVec.ofNat 8 a.index.left, BitVec.ofNat 8 a.index.right] ++ queryMode a.mode.left ++ queryMode a.mode.right ++
      [bits [a.reversed.left, a.reversed.right, a.scansUp.left, a.scansUp.right, a.opposed]] ++ be 4 a.skew

/-- The five bytes of one lens slot. -/
def querySlot (l : LensSlot) : List Byte :=
  [bits [l.contents.isSome, l.bad, l.pending.isSome]] ++
    be 4 ((l.contents.map fun c => c.table.identity.toNat).getD 0)

/-- The 124 bytes of a QUERY body. -/
def State.queryBody (s : State) : List Byte :=
  [s.cg.rig.code, s.cg.source.code, s.cg.ref.code] ++ be 2 s.cg.take.toNat ++ [flagByte s.cg.lastMark.isSome] ++
    be 6 ((s.cg.lastMark.map fun m => m.1.toNat).getD 0) ++ be 4 s.cg.effectiveRate ++
    queryEye s.eyes.left s.ae.reason.left ++ queryEye s.eyes.right s.ae.reason.right ++
    queryAgreement s.ae.agreement ++ be 4 s.ae.ceiling ++ be 4 s.ae.floor ++ [s.tp.shutterMode.code] ++
    be 4 s.tp.shutterValue ++ s.lts.slots.flatMap querySlot ++
    [s.lts.store.code, BitVec.ofNat 8 s.pq.queue.length, 0, s.rcp.notices,
      bits [s.rcp.cause.power, s.rcp.cause.pin, s.rcp.cause.request]]

end Sys2Proof.Machine
end

