-- ==== Sys2Proof/Machine/Ops.lean ====
section
/-! DEFINITION. The named operations over the part's state that every block shares: one update per block, notices, the
directive buffers, the eye states, the lost-report counts, the clock and the reset of the whole part. -/

namespace Sys2Proof.Machine

namespace State

/-! ## One update per block -/

def mapCg (f : Cadence → Cadence) (s : State) : State := { s with cg := f s.cg }
def mapEyes (f : PerEye EyePort → PerEye EyePort) (s : State) : State := { s with eyes := f s.eyes }
def mapAe (f : AgreementEngine → AgreementEngine) (s : State) : State := { s with ae := f s.ae }
def mapTp (f : TriggerPlanner → TriggerPlanner) (s : State) : State := { s with tp := f s.tp }
def mapLts (f : LensStore → LensStore) (s : State) : State := { s with lts := f s.lts }
def mapLme (f : LensMatch → LensMatch) (s : State) : State := { s with lme := f s.lme }
def mapPe (f : Pairing → Pairing) (s : State) : State := { s with pe := f s.pe }
def mapPq (f : PairQueue → PairQueue) (s : State) : State := { s with pq := f s.pq }
def mapRcp (f : RigPort → RigPort) (s : State) : State := { s with rcp := f s.rcp }
def mapResets (f : Resets → Resets) (s : State) : State := { s with resets := f s.resets }

/-- The port of an eye. -/
def eye (s : State) (e : Eye) : EyePort := s.eyes.get e

/-- Update the port of one eye. -/
def mapEye (e : Eye) (f : EyePort → EyePort) (s : State) : State :=
  s.mapEyes fun p => p.set e (f (p.get e))

end State

/-! ## Notices (R168) -/

/-- Raise a notice. -/
def raise (n : Notice) (s : State) : State := s.mapRcp fun r => { r with notices := addNotice r.notices n }

/-! ## Eye states and directive buffers -/

/-- LISTENING, HELD, PROPOSED, AGREED or RUNNING (2.1). -/
def EyeState.attached : EyeState → Bool
  | .detached => false
  | .settling => false
  | _ => true

/-- RUNNING or AGREED: the states an eye of a take is in (R8, R60). -/
def EyeState.inTake : EyeState → Bool
  | .agreed => true
  | .running => true
  | _ => false

/-- The port's side of a write to the directive buffer (R36, R37). -/
def EyePort.writeDirective (d : Directive) (p : EyePort) : EyePort :=
  { p with
    buffer := some d
    fresh := true
    txn := p.txn.map fun t => { t with writeSinceLatch := true } }

/-- Write a directive into an eye's buffer. -/
def writeDirective (e : Eye) (d : Directive) (s : State) : State := s.mapEye e (EyePort.writeDirective d)

/-- The port's side of a change of the eye state: TRIG is low in every state but AGREED and RUNNING (R45, R46). -/
def EyePort.enterState (st : EyeState) (p : EyePort) : EyePort :=
  { p with state := st, trig := if st.inTake then p.trig else none }

/-- Put an eye in a state. In a state that is neither AGREED nor RUNNING no pulse of it is left (R45, R88). -/
def setEyeState (e : Eye) (st : EyeState) (s : State) : State :=
  let s := s.mapEye e (EyePort.enterState st)
  if st.inTake then s else s.mapTp fun t => { t with pulses := t.pulses.set e [] }

/-- Put an eye in LISTENING or HELD with a WAIT reason, and write the WAIT (R47). -/
def waitEye (e : Eye) (st : EyeState) (reason : WaitReason) (s : State) : State :=
  let s := setEyeState e st s
  let s := s.mapAe fun a => { a with reason := a.reason.set e reason }
  writeDirective e (.wait reason) s

/-- The AGREE an agreement record gives an eye (R56, R62): its offer index and its reverse value. DESIGN CHOICE, unsafe: R52
says that the scene direction is sent to the camera in AGREE too; R56 names the index and the reverse value alone, and the
record of 10.3 has no field for the direction, so none is sent (notes/assumptions/31.md). -/
def agreeDirective (a : Agreement) (e : Eye) : Directive := .agree (a.index.get e) (a.reversed.get e)

/-- Put an eye in PROPOSED and write its AGREE (R56, R62). -/
def proposeEye (e : Eye) (a : Agreement) (s : State) : State :=
  writeDirective e (agreeDirective a e) (setEyeState e .proposed s)

/-- The port's side of a lost report: the count goes up by one and stays at 255. In the instant at which a saturated count
was taken the take came first, and the increment leaves 255 (R44, notes/assumptions/28.md). -/
def EyePort.countLost (p : EyePort) : EyePort :=
  { p with lost := if p.takenFull then Config.lostMax else min (p.lost + 1) Config.lostMax }

/-- Count one lost report (R44). -/
def countLost (e : Eye) (s : State) : State := s.mapEye e EyePort.countLost

/-- The port's side of the Pairing Engine taking the count: it is 0, and the port keeps, to the end of the instant, whether
it was saturated (R44). -/
def EyePort.takeLost (p : EyePort) : EyePort :=
  { p with lost := 0, takenFull := p.takenFull || decide (Config.lostMax ≤ p.lost) }

/-- Enter SETTLING: the presence timer counts high time from 0 (R26). -/
def EyePort.settle (p : EyePort) : EyePort := { p with state := .settling, timer := .high 0 }

/-- R26 holds: the eye is DETACHED, the port is enabled and PRES is high. -/
def EyePort.maySettle (p : EyePort) : Bool := decide (p.state = .detached) && p.enabled && p.pres

/-! ## The clock (R1) -/

/-- The presence timer after `n` ticks: it counts while PRES stands as it counts for (R27, R28). -/
def PresenceTimer.advance (n : Nat) (pres : Bool) : PresenceTimer → PresenceTimer
  | .idle => .idle
  | .high c => if pres then .high (min (c + n) Config.settleTicks) else .high c
  | .low c => if pres then .low c else .low (min (c + n) Config.detachTicks)

/-- The hold counts of the resets in force after `n` ticks. -/
def Resets.advance (n : Nat) (r : Resets) : Resets :=
  { r with
    powerOn := r.powerOn.map fun c => min (c + n) Config.powerOnTicks
    request := r.request.map fun c => min (c + n) Config.requestResetTicks }

/-- The port after `n` ticks: its presence timer, and, once a tick has passed, no take of the present instant (R44). -/
def EyePort.advance (n : Nat) (p : EyePort) : EyePort :=
  { p with timer := p.timer.advance n p.pres, takenFull := decide (n = 0) && p.takenFull }

/-- `n` ticks pass: the timebase, unless a reset holds it at 0, the eye ports and the hold counts. -/
def advance (n : Nat) (s : State) : State :=
  { s with
    timebase := if s.isHeld then s.timebase else after s.timebase n
    eyes := s.eyes.map (EyePort.advance n)
    resets := s.resets.advance n }

/-- The clock runs on to an instant; an instant that has passed leaves it as it is (notes/assumptions/2.md). -/
def waitUntil (t : Time) (s : State) : State := advance (ticksUntil s.timebase t) s

/-- One tick: what a step does on an empty queue (notes/assumptions/1.md). -/
def tick (s : State) : State := advance 1 s

/-! ## The reset of the part (9.6) -/

/-- Every block at its reset value (R175). Kept: the levels of the input pins and what the SDO lines have carried, the
non-volatile places (a save in progress leaves its place marked unfinished, R109), the reset-cause record, the resets in
force and the queue of commands. -/
def holdInReset (s : State) : State where
  timebase := 0
  cg := .atReset
  eyes := s.eyes.map fun p => .atReset p.pres p.selLow p.sent
  ae := .atReset
  tp := .atReset
  lts := .atReset s.lts.nv
  lme := .atReset
  pe := .atReset
  pq := .atReset s.pq.selLow s.pq.sent
  rcp := .atReset s.rcp.cause s.rcp.selLow s.rcp.sent
  resets := s.resets
  pending := s.pending

/-! ## Responses (R164) -/

/-- Store a response. -/
def respond (kind : Byte) (code : ResponseCode) (body : List Byte) (s : State) : State :=
  s.mapRcp fun r => { r with response := ⟨code, kind, body⟩ }

/-- Store a response with no body. -/
def answer (kind : Byte) (code : ResponseCode) (s : State) : State := respond kind code [] s

end Sys2Proof.Machine
end

