-- ==== Sys2Proof/Machine/LensMatching.lean ====
section
/-! DEFINITION. The Lens Match Engine's arithmetic (spec/06_lens_matching.md): forward targets (R117 to R119), the inverse
mapping of counts (R124, R125), the comparison of an axis (R123, R126), and the clearing of previous targets (R120,
R121). -/

namespace Sys2Proof.Machine

/-- A breakpoint: (demand, count). -/
abbrev Point := Nat × Nat

/-- The segment of a demand that lies within the table: the one with d_i ≤ d < d_(i+1), or the last (R117). -/
def demandSegment (d : Nat) : List Point → Option (Point × Point)
  | p :: q :: rest => if d < q.1 ∨ rest = [] then some (p, q) else demandSegment d (q :: rest)
  | _ => none

/-- The demand limited to the table's first and last breakpoints (R117). -/
def clampDemand (t : AxisTable) (d : Nat) : Nat :=
  match t.points.head?, t.points.getLast? with
  | some first, some last => if d < first.1 then first.1 else if last.1 < d then last.1 else d
  | _, _ => d

/-- The step from a segment's start: (y2 − y1) × (x − x1) / (x2 − x1), rounded half away from zero. -/
def interpolate (x x1 x2 y1 y2 : Nat) : Int := roundQuot (((y2 : Int) - y1) * ((x : Int) - x1)) ((x2 : Int) - x1)

/-- The ideal count of a demand within a segment (R118). -/
def idealInSegment (d : Nat) (seg : Point × Point) : Nat :=
  (seg.1.2 + interpolate d seg.1.1 seg.2.1 seg.1.2 seg.2.2 : Int).toNat

/-- The ideal count of a held demand; none for a table with fewer than two breakpoints, which no slot holds (R94). -/
def idealCount (t : AxisTable) (d : Nat) : Option Nat :=
  (demandSegment (clampDemand t d) t.points).map (idealInSegment (clampDemand t d))

/-- The target: the ideal count, or the previous target moved toward it by at most the slew limit (R119). -/
def slewed (slew : Nat) (previous : Option Nat) (ideal : Nat) : Nat :=
  match previous with
  | none => ideal
  | some p => ((p : Int) + limitAbs slew ((ideal : Int) - p)).toNat

/-- One axis of one eye in a plan: its target and whether its demand was clamped and its move limited (R117 to R119). -/
structure AxisTarget where
  target : Nat
  clamped : Bool
  lagged : Bool
deriving DecidableEq, Repr

/-- The forward computation of one axis; none when a condition of R117 fails. -/
def axisTarget (table : Option AxisTable) (motorised : Bool) (demand previous : Option Nat) : Option AxisTarget :=
  match motorised, table, demand with
  | true, some t, some d =>
    match idealCount t d with
    | none => none
    | some ideal =>
      let target := slewed t.slew previous ideal
      some ⟨target, decide (clampDemand t d ≠ d), decide (target ≠ ideal)⟩
  | _, _, _ => none

/-- The forward computation of one eye (R117). -/
def eyeTargets (lens : EyeLens) (demand : PerAxis (Option Nat)) : PerAxis (Option AxisTarget) :=
  .of fun a =>
    axisTarget (lens.table.bind fun t => t.axes.get a) (lens.motorised.get a) (demand.get a) (lens.previous.get a)

/-- The three flags of an eye (R122). -/
def eyeFlags (lens : EyeLens) (targets : PerAxis (Option AxisTarget)) : PlanFlags where
  uncalibrated := lens.table.isNone
  lag := targets.any fun t => (t.map AxisTarget.lagged).getD false
  demandClamped := targets.any fun t => (t.map AxisTarget.clamped).getD false

/-! ## Inverse mapping -/

/-- The counts of an axis rise with demand. -/
def AxisTable.rising (t : AxisTable) : Bool :=
  match t.points.head?, t.points.getLast? with
  | some first, some last => decide (first.2 < last.2)
  | _, _ => true

/-- The count limited to the table's range (R124). -/
def clampCount (t : AxisTable) (c : Nat) : Nat :=
  match t.points.head?, t.points.getLast? with
  | some first, some last => max (min first.2 last.2) (min c (max first.2 last.2))
  | _, _ => c

/-- The segment of a count: c_i ≤ c < c_(i+1) on an increasing axis, c_i ≥ c > c_(i+1) on a decreasing one, or the last
(R124). -/
def countSegment (rising : Bool) (c : Nat) : List Point → Option (Point × Point)
  | p :: q :: rest =>
    if (if rising then c < q.2 else q.2 < c) ∨ rest = [] then some (p, q) else countSegment rising c (q :: rest)
  | _ => none

/-- The demand read back from a count within a segment (R125). -/
def demandInSegment (c : Nat) (seg : Point × Point) : Nat :=
  (seg.1.1 + interpolate c seg.1.2 seg.2.2 seg.1.1 seg.2.1 : Int).toNat

/-- The demand read back from a reported count (R124, R125). -/
def readBack (t : AxisTable) (c : Nat) : Option Nat :=
  (countSegment t.rising (clampCount t c) t.points).map (demandInSegment (clampCount t c))

/-- An axis that was not compared (R126). -/
def notCompared : LensResult := ⟨false, 0, false⟩

/-- The comparison of one axis from the two tables and counts, where there are any (R123, R126). -/
def compareAxis (tableL tableR : Option AxisTable) (countL countR : Option Nat) (tolerance : Nat) : LensResult :=
  match tableL, tableR, countL, countR with
  | some tl, some tr, some cl, some cr =>
    match readBack tl cl, readBack tr cr with
    | some dl, some dr =>
      let error := ((dl : Int) - dr).natAbs
      ⟨true, error, decide (tolerance < error)⟩
    | _, _ => notCompared
  | _, _, _, _ => notCompared

/-! ## Previous targets (R120, R121) -/

/-- Clear an eye's previous targets on every axis; a plan in progress takes none for the eye at its completion (R120, R121).
DESIGN CHOICE, unsafe: a clearing that finds no previous target during a plan still sets the clear-since-start mark, as
R120 says of every clearing that reaches an eye then; R121's last sentence says that such a clearing changes nothing
(notes/assumptions/29.md). -/
def clearPrevious (e : Eye) (s : State) : State :=
  s.mapLme fun l =>
    { l with
      previous := l.previous.set e (.all none)
      clearMark := if s.tp.inProgress.isSome then l.clearMark.set e true else l.clearMark }

/-- Clear an eye's previous targets when a condition holds. -/
def clearPreviousIf (c : Bool) (e : Eye) (s : State) : State := if c then clearPrevious e s else s

/-- An axis keeps its previous target unless the plan produced a new one (R120). -/
def newPrevious (old : PerAxis (Option Nat)) (targets : PerAxis (Option Nat)) : PerAxis (Option Nat) :=
  .of fun a => (targets.get a).orElse fun _ => old.get a

end Sys2Proof.Machine
end

