-- ==== Sys2Proof/Machine/LensStoreOps.lean ====
section
/-! DEFINITION. The Lens Table Store's operations (spec/05_lens_tables.md): binding (R105), applying a commit or discard
(R103, R104), holding one (R100, R101), the plan-start and drain apply (R102), and the load (R110). -/

namespace Sys2Proof.Machine

/-- A slot of the store; an EMPTY one for a number the store does not have. -/
def LensStore.slot (l : LensStore) (k : Nat) : LensSlot := l.slots.getD k ⟨none, none, false⟩

/-- Update one slot. -/
def LensStore.mapSlot (k : Nat) (f : LensSlot → LensSlot) (l : LensStore) : LensStore :=
  { l with slots := l.slots.modify k f }

/-- The lens identity a slot carries, when it is VALID. -/
def LensSlot.identity (l : LensSlot) : Option (BitVec 32) := l.contents.map fun c => c.table.identity

/-- The image of a slot: that of its contents, or the empty image (R94, R95). -/
def LensSlot.image (l : LensSlot) : List Byte := (l.contents.map LensImage.image).getD emptyImage

/-- The slot whose lens identity equals a given one (R105). -/
def LensStore.find (l : LensStore) (identity : BitVec 32) : Option Nat :=
  l.slots.findIdx? fun slot => slot.identity == some identity

/-- The slot an eye is to be bound to: that of the identity of its held CAPS (R105). -/
def State.bindingOf (s : State) (e : Eye) : Option Nat :=
  ((s.eye e).caps.bind Caps.identity).bind s.lts.find

/-- Evaluate an eye's binding; a change clears the eye's previous targets (R105). -/
def evalBinding (e : Eye) (s : State) : State :=
  let new := s.bindingOf e
  if s.lts.binding.get e = new then s
  else clearPrevious e (s.mapLts fun l => { l with binding := l.binding.set e new })

/-- Evaluate both bindings. -/
def evalBindings (s : State) : State := evalBinding .right (evalBinding .left s)

/-- The table of the slot an eye is bound to, as the slot stands. -/
def State.boundTable (s : State) (e : Eye) : Option LensTable :=
  (s.lts.binding.get e).bind fun k => (s.lts.slot k).contents.map LensImage.table

/-- A slot after a commit or discard is applied to it: new contents, no pending operation, the bad-at-load mark as it
was (R103, R104). -/
def LensSlot.apply (op : PendingOp) (l : LensSlot) : LensSlot :=
  match op with
  | .commit copy => { l with contents := some copy, pending := none }
  | .discard => { l with contents := none, pending := none }

/-- A slot after its pending operation, if any, is applied. -/
def LensSlot.applyPending (l : LensSlot) : LensSlot :=
  match l.pending with
  | none => l
  | some op => l.apply op

/-- A binding names one of the slots. -/
def boundTo (touched : Nat → Bool) : Option Nat → Bool
  | none => false
  | some k => touched k

/-- After the slots in `touched` have been replaced: both bindings are evaluated once, and each eye bound to one of them
before or after has its previous targets cleared (R103 step 3, R104). -/
def afterApply (touched : Nat → Bool) (before : PerEye (Option Nat)) (s : State) : State :=
  let s := evalBindings s
  let hit (e : Eye) : Bool := boundTo touched (before.get e) || boundTo touched (s.lts.binding.get e)
  clearPreviousIf (hit .right) .right (clearPreviousIf (hit .left) .left s)

/-- Apply a commit or discard to a slot at once (R103, R104). -/
def applyOp (k : Nat) (op : PendingOp) (s : State) : State :=
  afterApply (· == k) s.lts.binding (s.mapLts (LensStore.mapSlot k (LensSlot.apply op)))

/-- A slot holds a pending operation. -/
def LensStore.hasPending (l : LensStore) (k : Nat) : Bool := (l.slot k).pending.isSome

/-- Apply every pending operation at one instant (R102). -/
def applyPendingOps (s : State) : State :=
  if s.lts.slots.any fun slot => slot.pending.isSome then
    afterApply s.lts.hasPending s.lts.binding
      (s.mapLts fun l => { l with slots := l.slots.map LensSlot.applyPending })
  else s

/-- A commit or discard to a slot is held: the rig is ROLLING and the slot is the binding of an AGREED or RUNNING eye
(R100). -/
def State.holdsChange (s : State) (k : Nat) : Bool :=
  let bound (e : Eye) : Bool := (s.eye e).state.inTake && s.lts.binding.get e == some k
  decide (s.cg.rig = .rolling) && (bound .left || bound .right)

/-- Apply or hold a commit or discard; a held one replaces what the slot holds pending (R100, R101, R104). -/
def changeSlot (k : Nat) (op : PendingOp) (s : State) : State :=
  if s.holdsChange k then s.mapLts (LensStore.mapSlot k fun l => { l with pending := some op })
  else applyOp k op s

/-- The identity of a slot's pending COMMIT. -/
def LensSlot.pendingIdentity (l : LensSlot) : Option (BitVec 32) :=
  match l.pending with
  | some (.commit copy) => some copy.table.identity
  | _ => none

/-- An identity clashes with a slot other than the one named (R99). -/
def LensStore.clashes (l : LensStore) (k : Nat) (identity : BitVec 32) : Bool :=
  (List.range 8).any fun j =>
    j != k && ((l.slot j).identity == some identity || (l.slot j).pendingIdentity == some identity)

/-! ## The load (R110) -/

/-- The slots after the load, judged 0 to 7 in turn: `found` holds the identities made VALID so far. -/
def loadSlots : List (BitVec 32) → List NvPlace → List LensSlot
  | _, [] => []
  | found, place :: rest =>
    match judgePlace place with
    | .empty => ⟨none, none, false⟩ :: loadSlots found rest
    | .bad => ⟨none, none, true⟩ :: loadSlots found rest
    | .valid contents =>
      if contents.table.identity ∈ found then ⟨none, none, true⟩ :: loadSlots found rest
      else ⟨some contents, none, false⟩ :: loadSlots (contents.table.identity :: found) rest

/-- The load completes: the slots are judged, STORE_BAD is raised if any mark was set, the store is READY and both
bindings are evaluated. -/
def finishLoad (s : State) : State :=
  let slots := loadSlots [] s.lts.nv
  let s := s.mapLts fun l => { l with slots := slots, store := .ready }
  let s := if slots.any LensSlot.bad then raise .storeBad s else s
  evalBindings s

/-! ## The staging buffer (R95, R96) -/

/-- The form of the staging buffer: exactly 400 bytes. -/
abbrev Staging.wf (buffer : List Byte) : Prop := buffer.length = Config.stagingBytes

/-- Bytes written into a buffer from an offset; the buffer keeps its length. -/
def writeBytes (buffer : List Byte) (offset : Nat) (data : List Byte) : List Byte :=
  (buffer.take offset ++ data ++ buffer.drop (offset + data.length)).take buffer.length

/-- Bytes of an image from an offset; positions beyond its end read as 0x00 (R112). -/
def readBytes (image : List Byte) (offset n : Nat) : List Byte := padded 0 (image.drop offset) n

end Sys2Proof.Machine
end

