-- ==== Sys2Proof/Machine/PairQueueOps.lean ====
section
/-! DEFINITION. The Pair Queue and the pair port (spec/08_pair_queue_and_pair_port.md): accepting or dropping an offered
record (R153, R154) and the read transactions (R157, R158). -/

namespace Sys2Proof.Machine

/-- The record as the queue holds it: PRECEDED_BY_LOSS set if owed, and the check computed (R153). -/
def acceptRecord (owed : Bool) (r : PairRecord) : QueuedRecord :=
  let r := { r with precededByLoss := owed }
  ⟨r, recordCheck r.bytes⟩

/-- Offer a pair record: appended when the queue holds fewer than 64, dropped otherwise (R153, R154). -/
def offer (r : PairRecord) (s : State) : State :=
  if s.pq.queue.length < Config.queueDepth then
    s.mapPq fun q => { q with queue := q.queue ++ [acceptRecord q.precededByLoss r], precededByLoss := false }
  else raise .queueOverflow (s.mapPq fun q => { q with precededByLoss := true })

/-- A falling edge of P_SEL# and `early` bits after it: latch the head record, or the EMPTY record (R157). While a reset is
in force the transaction is ignored and carries 0x00 (R175). -/
def pairStart (early : Nat) (s : State) : State :=
  if s.pq.selLow then s
  else
    s.mapPq fun q =>
      if s.isHeld then { q with selLow := true, read := none, sent := thenZeros [] early }
      else
        { q with
          selLow := true
          read := some ⟨q.queue.head?, early / 8⟩
          sent := clockOut (latchedBytes q.queue.head?) early }

/-- The queue after a read: the head leaves when it was latched and all its bytes went out (R158). -/
def afterRead (r : PairRead) (queue : List QueuedRecord) : List QueuedRecord :=
  if r.latched.isSome ∧ Config.pairRecordBytes ≤ r.bytesOut then queue.tail else queue

/-- The port once `n` bits were clocked in all and P_SEL# rose (R158). A read that a reset abandoned, or that began in one,
carried 0x00 from there on (R152). -/
def PairQueue.finish (n : Nat) (q : PairQueue) : PairQueue :=
  match q.read with
  | none => { q with selLow := false, sent := thenZeros q.sent n }
  | some r =>
    { q with
      selLow := false
      sent := clockOut (latchedBytes r.latched) n
      queue := afterRead { r with bytesOut := n / 8 } q.queue
      read := none }

/-- A rising edge of P_SEL# after `n` bits. With P_SEL# high the command stands for the whole transaction
(notes/assumptions/4.md). -/
def pairEnd (n : Nat) (s : State) : State := (pairStart 0 s).mapPq (PairQueue.finish n)

end Sys2Proof.Machine
end

