-- ==== Sys2Proof/Machine/PairingOps.lean ====
section
/-! DEFINITION. The Pairing Engine's operations (spec/07_pairing.md): completion and derived values (R133, R139 to R141),
retirement and the pair record (R146 to R150), mark events (R132, R142), pulses (R134), frames (R136 to R138) and
departures (R143). -/

namespace Sys2Proof.Machine

/-! ## Slots -/

/-- A part that has reached its final state (7.3). -/
def PartState.final : PartState → Bool
  | .triggerPending => false
  | .awaited => false
  | _ => true

/-- A slot is complete when neither part is TRIGGER_PENDING or AWAITED (R133). -/
def PairSlot.complete (p : PairSlot) : Bool := p.parts.left.state.final && p.parts.right.state.final

/-- Update the part of one eye. -/
def PairSlot.mapPart (e : Eye) (f : EyePart → EyePart) (p : PairSlot) : PairSlot :=
  { p with parts := p.parts.set e (f (p.parts.get e)) }

/-- Both parts are REPORTED (R139). -/
def PairSlot.bothReported (p : PairSlot) : Bool :=
  decide (p.parts.left.state = .reported) && decide (p.parts.right.state = .reported)

/-- The reported exposure start delay of a part; 0 without a report. -/
def EyePart.delay (p : EyePart) : Nat := (p.report.map KeptReport.delay).getD 0

/-- The reported count of a part on an axis. -/
def EyePart.count (p : EyePart) (a : Axis) : Option Nat := p.report.bind fun r => r.counts.get a

/-- The anchor skew of the frames taken (R140). -/
def PairSlot.measuredAnchor (p : PairSlot) : Int := (p.parts.left.delay : Int) - p.parts.right.delay

/-- The worst-row skew of the frames taken (R140). -/
def PairSlot.measuredWorst (p : PairSlot) : Nat :=
  max (p.p0 + p.measuredAnchor).natAbs (p.p1024 + p.measuredAnchor).natAbs

/-- The comparison of one axis of a slot, with the tables as they stand (R123, R141). -/
def State.slotLens (s : State) (p : PairSlot) (a : Axis) : LensResult :=
  if p.parts.left.flags.uncalibrated || p.parts.right.flags.uncalibrated then notCompared
  else
    compareAxis ((s.boundTable .left).bind fun t => t.axes.get a) ((s.boundTable .right).bind fun t => t.axes.get a)
      (p.parts.left.count a) (p.parts.right.count a) (s.ae.frame.tolerance.get a)

/-- The derived values of a slot with both parts REPORTED (R139 to R141); any other slot keeps zeros. -/
def State.derive (s : State) (p : PairSlot) : PairSlot :=
  if p.bothReported then
    { p with
      anchorSkew := p.measuredAnchor
      worstSkew := p.measuredWorst
      skew := decide (s.ae.frame.skewLimit < p.measuredWorst)
      lens := .of (s.slotLens p) }
  else p

/-! ## Retirement -/

/-- The kind of a retiring slot, the first line that holds (R146). -/
def PairSlot.kind (p : PairSlot) : RecordKind :=
  if p.skipped then .skipped
  else if p.parts.left.state = .missing ∨ p.parts.right.state = .missing then .orphan
  else if p.bothReported then .paired
  else .single

/-- The eye state of a part in its record (R149). -/
def EyePart.outcome (p : EyePart) : EyeOutcome :=
  match p.state with
  | .reported => .reported
  | .absent => .absent
  | _ => if p.triggered then .missingTriggered else .missingUntriggered

/-- The eye part of the record, with the eye's lost-report count (R149, R150). -/
def EyePart.record (p : EyePart) (lostReports : Nat) : RecordPart where
  outcome := p.outcome
  trigger := if p.triggered then p.trigger else 0
  offset := p.offset
  delay := if p.state = .reported then p.delay else 0
  status := if p.state = .reported then (p.report.map KeptReport.status).getD 0 else 0
  lostReports := lostReports
  stale := p.stale
  flags := p.flags
  lost := p.lost

/-- The pair record of a slot (R148). -/
def PairSlot.record (p : PairSlot) (lost : PerEye Nat) : PairRecord where
  kind := p.kind
  skew := p.skew
  lensMismatch := p.lens.any LensResult.mismatch
  rateClamped := p.rateClamped
  holdover := p.holdover
  refStep := p.refStep
  precededByLoss := false
  opposed := p.opposed
  take := p.take
  mark := p.mark
  time := p.time
  period := p.period
  exposure := p.exposure
  slip := p.slip
  predicted := p.predicted
  anchorSkew := p.anchorSkew
  worstSkew := p.worstSkew
  parts := ⟨p.parts.left.record lost.left, p.parts.right.record lost.right⟩
  lens := p.lens

/-- Remove from the lists what still names a mark: trigger entries and scheduled pulses (R142, R147). -/
def forgetMark (m : MarkNumber) (e : Eye) (s : State) : State :=
  let s := s.mapPe fun p =>
    { p with triggers := p.triggers.set e ((p.triggers.get e).filter fun t => t.mark != m) }
  s.mapTp fun t => { t with pulses := t.pulses.set e ((t.pulses.get e).filter fun p => p.mark != m) }

/-- Take both eyes' lost-report counts into a record: the ports set them to 0 (R44, R150). The model puts a take first in
its instant where its command comes first (notes/assumptions/28.md). -/
def takeLost (s : State) : State := s.mapEyes fun p => p.map EyePort.takeLost

/-- Retire one complete slot: build its record with both lost-report counts, take the counts, drop what still names its
mark and offer the record (R147, R150). -/
def retireSlot (p : PairSlot) (s : State) : State :=
  let record := p.record (s.eyes.map EyePort.lost)
  offer record (forgetMark p.mark .right (forgetMark p.mark .left (takeLost s)))

/-- Retire complete slots from the front of a window, in mark order; the rest stays open (R147). -/
def retireFrom : List PairSlot → State → State
  | [], s => s.mapPe fun p => { p with window := [] }
  | slot :: rest, s =>
    if slot.complete then retireFrom rest (retireSlot slot s)
    else s.mapPe fun p => { p with window := slot :: rest }

/-- Retirement (R147). -/
def retire (s : State) : State := retireFrom s.pe.window s

/-! ## Mark events (R132, R142) -/

/-- An open part of a timed-out slot becomes MISSING; LOST is not set (R142). -/
def EyePart.timeOut (p : EyePart) : EyePart := if p.state.final then p else { p with state := .missing }

/-- A slot that reached age W and is not complete is timed out (R132 step 2). -/
def PairSlot.timedOut (depth : Nat) (p : PairSlot) : Bool := decide (depth ≤ p.age) && !p.complete

/-- The slot after step 2. -/
def PairSlot.timeOut (depth : Nat) (p : PairSlot) : PairSlot :=
  if p.timedOut depth then { p with parts := p.parts.map EyePart.timeOut } else p

/-- Drop the entries and pulses of the marks that time out (R142, R88). -/
def forgetTimedOut (depth : Nat) : List PairSlot → State → State
  | [], s => s
  | slot :: rest, s =>
    forgetTimedOut depth rest
      (if slot.timedOut depth then forgetMark slot.mark .right (forgetMark slot.mark .left s) else s)

/-- Steps 1 to 3 of a mark event: ageing, timeout, retirement (R132). -/
def ageWindow (s : State) : State :=
  let depth := s.ae.frame.depth
  let aged := s.pe.window.map fun p => { p with age := p.age + 1 }
  let s := forgetTimedOut depth aged s
  retire (s.mapPe fun p => { p with window := aged.map (PairSlot.timeOut depth) })

/-! ## Pulses, frames and departures -/

/-- Update the slot of a mark. -/
def mapSlotOf (m : MarkNumber) (f : PairSlot → PairSlot) (s : State) : State :=
  s.mapPe fun p => { p with window := p.window.map fun slot => if slot.mark = m then f slot else slot }

/-- The part of a fired pulse: TRIGGER_PENDING becomes AWAITED, with the trigger number (R134). -/
def EyePart.fire (trigger : BitVec 16) (p : EyePart) : EyePart :=
  if p.state = .triggerPending then { p with state := .awaited, triggered := true, trigger := trigger } else p

/-- The scheduled pulse of an eye that is due first: the one of the earliest trigger time as seen from the present instant
and, of several at one tick, the one of the lowest mark (R85, R86). -/
def earliestPulse (now : Time) : List Pulse → Option Pulse
  | [] => none
  | p :: rest =>
    match earliestPulse now rest with
    | none => some p
    | some q => if timeDiff q.time now < timeDiff p.time now then some q else some p

/-- Fire a pulse of an eye: TRIG rises, the pulse takes the eye's next trigger number and leaves the list, and its entry
enters the trigger list and its slot (R86, R134). -/
def firePulse (e : Eye) (p : Pulse) (s : State) : State :=
  let number := s.tp.triggerNumber.get e
  let s := s.mapEye e fun port => { port with trig := some s.timebase }
  let s := s.mapTp fun t =>
    { t with
      triggerNumber := t.triggerNumber.set e (number + 1)
      pulses := t.pulses.set e ((t.pulses.get e).erase p) }
  let s := s.mapPe fun q => { q with triggers := q.triggers.set e (q.triggers.get e ++ [⟨number, p.mark⟩]) }
  mapSlotOf p.mark (PairSlot.mapPart e (EyePart.fire number)) s

/-- The part of a matched FRAME (R136, R137). -/
def EyePart.matched (m : MarkNumber) (f : RawFrame) (p : EyePart) : EyePart :=
  { p with
    state := .reported
    report := some ⟨f.echo, f.delay.toNat, f.status, frameCounts f⟩
    stale := decide (f.echo ≠ m.setWidth 16) }

/-- The slot of a matched FRAME, with its derived values if it is now complete (R133, R136, R139). -/
def State.matchSlot (s : State) (e : Eye) (f : RawFrame) (p : PairSlot) : PairSlot :=
  let p := p.mapPart e (EyePart.matched p.mark f)
  if p.complete then s.derive p else p

/-- Match a FRAME by its trigger number; one that matches no entry is counted as lost (R136, R138). -/
def matchFrame (e : Eye) (f : RawFrame) (s : State) : State :=
  match (s.pe.triggers.get e).find? fun t => t.trigger == f.trigger with
  | none => countLost e s
  | some entry =>
    let s := s.mapPe fun p => { p with triggers := p.triggers.set e ((p.triggers.get e).erase entry) }
    retire (mapSlotOf entry.mark (s.matchSlot e f) s)

/-- An open part of a departing eye: MISSING with LOST (R143). -/
def EyePart.depart (p : EyePart) : EyePart := if p.state.final then p else { p with state := .missing, lost := true }

/-- The Pairing Engine's side of a departure (R143). -/
def loseParts (e : Eye) (s : State) : State :=
  retire (s.mapPe fun p =>
    { p with
      window := p.window.map (PairSlot.mapPart e EyePart.depart)
      triggers := p.triggers.set e [] })

/-- REF_STEP set in the slot of a mark, while it is open (R145). -/
def setRefStep (m : MarkNumber) (s : State) : State := mapSlotOf m (fun p => { p with refStep := true }) s

end Sys2Proof.Machine
end

