-- ==== Sys2Proof/Machine/PlannerOps.lean ====
section
/-! DEFINITION. The Trigger Planner (spec/04_trigger_planning.md) and the Cadence Generator's share of a plan
(spec/01_frame_cadence.md, R11, R12, R15): the plan as a function of its snapshot, its start, its completion, its mark. -/

namespace Sys2Proof.Machine

/-! ## Scan geometry (R52, R54, R76, R82) -/

/-- The anchor height in an eye's own readout order (R54, R76). -/
def anchorHeight (scansUp : Bool) (anchor : Nat) : Nat := if scansUp then 1024 - anchor else anchor

/-- The anchor offset t_e (R54, R76). -/
def anchorOffset (readout : Nat) (scansUp : Bool) (anchor : Nat) : Nat := readout * anchorHeight scansUp anchor / 1024

/-- The readout delay s_e(x) of scene row x (R54, R82). -/
def rowDelay (readout : Nat) (scansUp : Bool) (x : Nat) : Nat :=
  readout * (if scansUp then 1024 - x else x) / 1024

/-- The edge difference p(x) of two eyes with given trigger offsets (R54, R82). -/
def edgeDifference (trig readout : PerEye Nat) (scansUp : PerEye Bool) (x : Nat) : Int :=
  ((trig.left : Int) + rowDelay readout.left scansUp.left x) - ((trig.right : Int) + rowDelay readout.right scansUp.right x)

/-- The larger of two edge differences' sizes (R54, R82). -/
def edgeSkew (p0 p1024 : Int) : Nat := max p0.natAbs p1024.natAbs

/-! ## The plan from its snapshot -/

namespace Snapshot

/-- The larger blank of both offers. -/
def maxBlank (s : Snapshot) : Nat := max s.blank.left s.blank.right

/-- Step 1 of the exposure (R74). -/
def wantedExposure (s : Snapshot) : Nat :=
  match s.shutterMode with
  | .angle => s.period * s.shutterValue / 36000
  | .time => s.shutterValue

/-- The exposure E (R74). -/
def exposure (s : Snapshot) : Nat := max (min s.wantedExposure (s.period - s.maxBlank)) 100

/-- The half-exposure lead h_e (R76). -/
def lead (s : Snapshot) (e : Eye) : Nat :=
  anchorOffset (s.readout.get e) (s.scansUp.get e) s.anchor + s.exposure / 2

/-- The common centroid C: the largest lead among the included eyes (R77). -/
def centroid (s : Snapshot) (included : PerEye Bool) : Nat :=
  max (if included.left then s.lead .left else 0) (if included.right then s.lead .right else 0)

/-- The offset trig_e of an eye; 0 for one not included (R77). -/
def offset (s : Snapshot) (included : PerEye Bool) (e : Eye) : Nat :=
  if included.get e then s.centroid included - s.lead e else 0

/-- The shortfall of an eye; 0 without a last readout start (R79). -/
def shortfall (s : Snapshot) (included : PerEye Bool) (e : Eye) : Nat :=
  match s.lastReadout.get e with
  | none => 0
  | some last =>
    if included.get e then
      (timeDiff last s.expected + s.readout.get e + s.blank.get e - s.offset included e - s.exposure).toNat
    else 0

/-- The slip: the larger shortfall of the included eyes (R79). -/
def slip (s : Snapshot) (included : PerEye Bool) : Nat := max (s.shortfall included .left) (s.shortfall included .right)

/-- The edge difference at row x: that of the two offsets, or 0 with one eye included (R82). -/
def edge (s : Snapshot) (included : PerEye Bool) (x : Nat) : Int :=
  if included.left && included.right then
    edgeDifference ⟨s.offset included .left, s.offset included .right⟩ s.readout s.scansUp x
  else 0

/-- The lens computation of an included eye; nothing for one not included. -/
def lensTargets (s : Snapshot) (included : PerEye Bool) (e : Eye) : PerAxis (Option AxisTarget) :=
  if included.get e then eyeTargets (s.lens.get e) s.demand else .all none

/-- The flags of an included eye; none for one not included (R122, R131). -/
def lensFlags (s : Snapshot) (included : PerEye Bool) (e : Eye) : PlanFlags :=
  if included.get e then eyeFlags (s.lens.get e) (s.lensTargets included e) else ⟨false, false, false⟩

end Snapshot

/-- The completed plan: everything follows from the snapshot and the included eyes (R83, R92). -/
def PlanInProgress.plan (p : PlanInProgress) : Plan where
  mark := p.snapshot.mark
  period := p.snapshot.period
  exposure := p.snapshot.exposure
  offset := .of (p.snapshot.offset p.included)
  slip := p.snapshot.slip p.included
  skipped := decide (p.snapshot.period / 4 < p.snapshot.slip p.included)
  targets := .of fun e => (p.snapshot.lensTargets p.included e).map fun t => t.map AxisTarget.target
  p0 := p.snapshot.edge p.included 0
  p1024 := p.snapshot.edge p.included 1024
  skew := edgeSkew (p.snapshot.edge p.included 0) (p.snapshot.edge p.included 1024)
  included := p.included
  departed := p.departed
  rateClamped := p.snapshot.rateClamped
  opposed := p.snapshot.opposed
  flags := .of (p.snapshot.lensFlags p.included)

/-! ## The rate of a plan (R11, R12, R15) -/

/-- The ramp after one more step (R15). -/
def Ramp.next (r : Ramp) : Ramp := { r with k := r.k + 1 }

/-- The step rate of a ramp record (R15). -/
def Ramp.rate (r : Ramp) : Nat := ((r.r0 : Int) + roundQuot (((r.r1 : Int) - r.r0) * r.k) r.marks).toNat

/-- The step rate of the plan now begun (R15). -/
def Cadence.stepRate (c : Cadence) : Nat := (c.ramp.map fun r => r.next.rate).getD c.targetRate

/-- The ramp record the plan leaves: removed at its last step (R15). -/
def Cadence.steppedRamp (c : Cadence) : Option Ramp :=
  match c.ramp with
  | none => none
  | some r => if r.next.marks ≤ r.next.k then none else some r.next

/-- The period of a rate under an agreement: never below its readout floor (R11). -/
def framePeriod (rate floor : Nat) : Nat := max (perTick rate) floor

/-- The rate, period and clamp of a plan, and the Cadence Generator after it took them (R11, R12, R15, R68). -/
structure PlanCadence where
  period : Nat
  rateClamped : Bool
  /-- X less the plan's start: the period, or with source REF the earliest time after a correction (R79). -/
  ahead : Nat
deriving DecidableEq, Repr

/-- With source FREE the ramp steps and the rate gives the period; with source REF the plan takes P (R68, R79). -/
def planCadence (c : Cadence) (a : Agreement) : PlanCadence :=
  match c.source with
  | .free =>
    let period := framePeriod (limit Config.minRate a.ceiling c.stepRate) a.floor
    ⟨period, decide (a.ceiling < c.stepRate), period⟩
  | .ref => ⟨c.period.getD 0, false, c.period.getD 0 - c.period.getD 0 / 256⟩

/-- The Cadence Generator after a plan start at an instant: the ramp has stepped, the current rate is the effective rate,
and with source FREE the next mark is scheduled (R4, R11, R12, R15). -/
def Cadence.beginPlan (c : Cadence) (a : Agreement) (now : Time) : Cadence :=
  let p := planCadence c a
  match c.source with
  | .free =>
    { c with
      currentRate := limit Config.minRate a.ceiling c.stepRate
      ramp := c.steppedRamp
      planPeriod := p.period
      nextMark := some (after now p.period) }
  | .ref => { c with planPeriod := p.period }

/-! ## Plan start (R68, R69) -/

/-- The readout time used, T_e, of a sensor mode (R52). -/
def SensorMode.readout (m : SensorMode) (reversed : Bool) : Nat := if reversed then m.reversed.getD m.normal else m.normal

/-- What the plan reads of an eye's lens (R117). -/
def State.eyeLens (s : State) (e : Eye) : EyeLens where
  table := s.boundTable e
  motorised := ((s.eye e).caps.map Caps.axes).getD (.all false)
  previous := s.lme.previous.get e

/-- The eyes a plan begun now includes: RUNNING, or AGREED while the rig is ROLLING (R69). -/
def State.includedEyes (s : State) : PerEye Bool :=
  s.eyes.map fun p => decide (p.state = .running) || (decide (p.state = .agreed) && decide (s.cg.rig = .rolling))

/-- The snapshot of a plan begun now (R68). -/
def State.snapshot (s : State) (a : Agreement) : Snapshot where
  mark := s.cg.markCounter
  period := (planCadence s.cg a).period
  rateClamped := (planCadence s.cg a).rateClamped
  readout := .of fun e => (a.mode.get e).readout (a.reversed.get e)
  blank := a.mode.map SensorMode.blank
  scansUp := a.scansUp
  anchor := s.ae.frame.anchor
  opposed := a.opposed
  shutterMode := s.tp.shutterMode
  shutterValue := s.tp.shutterValue
  demand := s.lme.demand
  expected := after s.timebase (planCadence s.cg a).ahead
  lastReadout := s.tp.lastReadout
  lens := .of s.eyeLens

/-- A plan begins: pending table changes are applied, the clear-since-start marks are cleared, the snapshot is taken and
the Cadence Generator takes its step (R68, R102, R120). Without an agreement no plan begins; a ROLLING rig has one
(R12, notes/assumptions/15.md). -/
def planStart (s : State) : State :=
  let s := (applyPendingOps s).mapLme fun l => { l with clearMark := .both false }
  match s.ae.agreement with
  | none => s
  | some a =>
    let plan : PlanInProgress := ⟨s.snapshot a, s.includedEyes, .both false⟩
    (s.mapTp fun t => { t with inProgress := some plan }).mapCg fun c => c.beginPlan a s.timebase

/-! ## Plan completion (R70, R72, R120) -/

/-- An eye the plan was made for that has not departed. -/
def Plan.serves (p : Plan) (e : Eye) : Bool := p.included.get e && !p.departed.get e

/-- The RUN directive of an eye (R83, R179). -/
def Plan.run (p : Plan) (e : Eye) : Directive :=
  .run ⟨p.mark.setWidth 16, p.period, p.exposure, p.offset.get e, p.slip, p.skipped, p.targets.get e⟩

/-- What the completion does for one eye: RUN into its buffer, and its previous targets, unless they were cleared since
the start (R70, R120). -/
def serveEye (p : Plan) (e : Eye) (s : State) : State :=
  if p.serves e then
    let s := writeDirective e (p.run e) s
    if s.lme.clearMark.get e then s
    else s.mapLme fun l => { l with previous := l.previous.set e (newPrevious (l.previous.get e) (p.targets.get e)) }
  else s

/-- The plan in progress completes and becomes the prepared plan (R70). -/
def completePlan (s : State) : State :=
  match s.tp.inProgress with
  | none => s
  | some p =>
    let plan := p.plan
    (serveEye plan .right (serveEye plan .left s)).mapTp fun t =>
      { t with inProgress := none, prepared := some plan }

/-! ## The mark of a plan (R84, R131) -/

/-- The eye part the planner's word opens (R131). -/
def Plan.openPart (p : Plan) (e : Eye) : EyePart where
  state :=
    if !p.included.get e then .absent
    else if p.skipped then .absent
    else if p.departed.get e then .missing
    else .triggerPending
  triggered := false
  trigger := 0
  offset := p.offset.get e
  flags := p.flags.get e
  lost := p.included.get e && p.departed.get e
  report := none
  stale := false

/-- The slot of a rolling mark (R131). -/
def State.openSlot (s : State) (p : Plan) (number : MarkNumber) (holdover refStep : Bool) : PairSlot where
  mark := number
  time := s.timebase
  take := s.cg.take
  age := 0
  period := p.period
  exposure := p.exposure
  slip := p.slip
  skipped := p.skipped
  p0 := p.p0
  p1024 := p.p1024
  predicted := p.skew
  rateClamped := p.rateClamped
  opposed := p.opposed
  holdover := holdover
  refStep := refStep
  skew := false
  anchorSkew := 0
  worstSkew := 0
  lens := .all notCompared
  parts := .of p.openPart

/-- Open a slot at the new end of the window, and run retirement (R131, R132 step 4). -/
def openWindow (slot : PairSlot) (s : State) : State :=
  retire (s.mapPe fun p => { p with window := p.window ++ [slot] })

/-- An included eye that has not departed and is still AGREED becomes RUNNING, its trigger number 0 (R4, R84). -/
def joinEye (p : Plan) (e : Eye) (s : State) : State :=
  if p.serves e && decide ((s.eye e).state = .agreed) then
    (setEyeState e .running s).mapTp fun t => { t with triggerNumber := t.triggerNumber.set e 0 }
  else s

/-- The trigger time of an eye's pulse for a mark (R84). -/
def Plan.pulseTime (p : Plan) (e : Eye) (mark : Time) : Time := after mark (p.slip + p.offset.get e)

/-- Lay an eye's pulse for a mark and set S_e(last) (R78, R84). A pulse with slip and offset 0 falls at the mark and
fires within this event. -/
def layPulse (p : Plan) (e : Eye) (number : MarkNumber) (s : State) : State :=
  if p.serves e && !p.skipped then
    let time := p.pulseTime e s.timebase
    let pulse : Pulse := ⟨number, time⟩
    let s := s.mapTp fun t =>
      { t with
        pulses := t.pulses.set e (t.pulses.get e ++ [pulse])
        lastReadout := t.lastReadout.set e (some (after time p.exposure)) }
    if p.slip + p.offset.get e = 0 ∧ (s.eye e).state.inTake = true then firePulse e pulse s else s
  else s

/-! ## Departures and the end of a take (R72, R73) -/

/-- A plan with an included eye marked as departed (R72). -/
def PlanInProgress.depart (e : Eye) (p : PlanInProgress) : PlanInProgress :=
  if p.included.get e then { p with departed := p.departed.set e true } else p

/-- A prepared plan with an included eye marked as departed (R72). -/
def Plan.depart (e : Eye) (p : Plan) : Plan :=
  if p.included.get e then { p with departed := p.departed.set e true } else p

/-- An eye leaves RUNNING or AGREED by a detach, a PORT disable or a new CAPS: its pulses are dropped and TRIG falls,
S_e(last) and the previous targets are cleared, the plan records the departure, and its open slot parts are lost (R45,
R67, R72, R88, R121, R143). -/
def departEye (e : Eye) (s : State) : State :=
  let s := s.mapEye e fun p => { p with trig := none }
  let s := clearPrevious e s
  let s := s.mapTp fun t =>
    { t with
      pulses := t.pulses.set e []
      lastReadout := t.lastReadout.set e none
      inProgress := t.inProgress.map (PlanInProgress.depart e)
      prepared := t.prepared.map (Plan.depart e) }
  loseParts e s

/-- The plan for the next mark is discarded (R73). -/
def discardPlan (s : State) : State := s.mapTp fun t => { t with inProgress := none, prepared := none }

end Sys2Proof.Machine
end

