-- ==== Sys2Proof/Machine/CadenceOps.lean ====
section
/-! DEFINITION. The Cadence Generator (spec/01_frame_cadence.md): entry to DRAINING (R6, R8), the reference timer (R17 to
R24), and the mark events (R4, R9, R24) up to the return to SETUP. -/

namespace Sys2Proof.Machine

/-! ## Entry to DRAINING (R6, R8, R64, R73, R102) -/

/-- A RUNNING eye becomes AGREED (R6). -/
def stopRunning (e : Eye) (s : State) : State :=
  if (s.eye e).state = .running then setEyeState e .agreed s else s

/-- The directive owed to an eye that is not AGREED, written again (R64). -/
def rewriteOwed (e : Eye) (s : State) : State :=
  match (s.eye e).state with
  | .listening => writeDirective e (.wait (s.ae.reason.get e)) s
  | .held => writeDirective e (.wait (s.ae.reason.get e)) s
  | .proposed =>
    match s.ae.agreement with
    | some a => writeDirective e (agreeDirective a e) s
    | none => s
  | _ => s

/-- The Cadence Generator at the entry: DRAINING with drain count 0, and the ramp frozen at the current rate (R6). -/
def Cadence.drain (c : Cadence) : Cadence :=
  { c with rig := .draining, drainCount := 0, leadOwed := false, ramp := none, targetRate := c.currentRate }

/-- The rig enters DRAINING, by CUT or by the loss of both eyes: the plan is discarded, HALT is written to both eyes,
RUNNING eyes become AGREED, the ramp freezes, the directives owed to other eyes are written again, and pending table
changes are applied. -/
def enterDraining (s : State) : State :=
  let s := discardPlan s
  let s := writeDirective .right .halt (writeDirective .left .halt s)
  let s := stopRunning .right (stopRunning .left s)
  let s := s.mapCg Cadence.drain
  let s := rewriteOwed .right (rewriteOwed .left s)
  applyPendingOps s

/-- After an eye left RUNNING or AGREED in ROLLING: the take ends when the other eye is neither (R8). -/
def testLoss (e : Eye) (s : State) : State :=
  if s.cg.rig = .rolling ∧ (s.eye e.other).state.inTake = false then enterDraining s else s

/-! ## The reference (R17 to R22) -/

/-- An interval is close to another: 200 × |I − J| ≤ J (R17, R20). -/
def closeTo (i j : Nat) : Bool := decide (200 * ((i : Int) - j).natAbs ≤ j)

/-- An interval lies in the range of a reference period (R17). -/
def inPeriodRange (i : Nat) : Bool := decide (Config.minPeriod ≤ i ∧ i ≤ Config.maxPeriod)

/-- The seek record after one interval (R17). -/
def SeekRecord.interval (i : Nat) (r : SeekRecord) : SeekRecord :=
  if !inPeriodRange i then { r with lastGood := none, good := 0 }
  else
    match r.good, r.lastGood with
    | k + 1, some j =>
      if closeTo i j then { r with lastGood := some i, good := k + 2 } else { r with lastGood := some i, good := 1 }
    | _, _ => { r with lastGood := some i, good := 1 }

/-- The ticks from one instant to a later one. -/
def elapsed (since now : Time) : Nat := (now - since).toNat

/-- An edge in SEEKING: the first only records its time; a third good interval locks (R17). -/
def Cadence.seekEdge (e : Time) (c : Cadence) : Cadence :=
  match c.seek.lastEdge with
  | none => { c with seek := { c.seek with lastEdge := some e } }
  | some last =>
    let i := elapsed last e
    let seek : SeekRecord := { c.seek.interval i with lastEdge := some e }
    if 3 ≤ seek.good then
      { c with
        ref := .locked
        period := some i
        seek := ⟨none, none, 0⟩
        lock := ⟨none, 0, false⟩
        nextMark := some (after e i)
        window := some ⟨after e i, i / 8, none⟩ }
    else { c with seek := seek }

/-- An edge lies in a window, its boundaries included (R18). -/
def RefWindow.holds (w : RefWindow) (e : Time) : Bool := decide ((timeDiff e w.mark).natAbs ≤ w.half)

/-- The lower bound of a candidate period (R20, R47). -/
def AgreementEngine.periodBound (a : AgreementEngine) : Nat := max Config.minPeriod a.floor

/-- A candidate period is taken (R20). -/
def acceptsCandidate (a : AgreementEngine) (p candidate : Nat) : Bool :=
  closeTo candidate p && decide (a.periodBound ≤ candidate ∧ candidate ≤ Config.maxPeriod) &&
    decide (perTick candidate ≤ a.ceiling)

/-- P after an edge is attributed: the candidate from the previous mark's edge if there is one and it is taken; in
HOLDOVER no candidate is formed (R20, R22). -/
def updatedPeriod (a : AgreementEngine) (c : Cadence) (p : Nat) (e : Time) : Nat :=
  match c.ref, c.lock.prevEdge with
  | .locked, some prev => if acceptsCandidate a p (elapsed prev e) then elapsed prev e else p
  | _, _ => p

/-- The time of the mark after one whose edge was attributed: M + P + c, with c limited to floor(P/256) (R19). -/
def correctedMark (m : Time) (p : Nat) (e : Time) : Time :=
  m + BitVec.ofInt 48 ((p : Int) + limitAbs (p / 256) (timeDiff e m))

/-- The P used for the correction and the schedule: the updated one before the mark's event, the one held at the event
after it (R19). -/
def RefWindow.periodUsed (w : RefWindow) (updated : Nat) : Nat :=
  match w.event with
  | none => updated
  | some ev => ev.period

/-- The Cadence Generator after an edge is attributed to the window's mark (R18 to R22). -/
def Cadence.attribute (a : AgreementEngine) (w : RefWindow) (p : Nat) (e : Time) (c : Cadence) : Cadence :=
  let updated := updatedPeriod a c p e
  let next := correctedMark w.mark (w.periodUsed updated) e
  let relock := decide (c.ref = .holdover)
  { c with
    ref := .locked
    period := some updated
    lock := ⟨some e, 0, if relock && w.event.isNone then true else c.lock.stepOwed⟩
    nextMark := if w.event.isNone then c.nextMark else some next
    window := some ⟨next, updated / 8, none⟩ }

/-- The number of the rolling mark whose event the window has seen. -/
def RefWindow.rollingNumber (w : RefWindow) : Option MarkNumber := w.event.bind MarkEvent.number

/-- Attribute an edge: a relock raises REF_BACK, and gives REF_STEP to the slot of a mark already issued (R22, R145). -/
def attributeEdge (w : RefWindow) (p : Nat) (s : State) : State :=
  let relock := decide (s.cg.ref = .holdover)
  let s := s.mapCg (Cadence.attribute s.ae w p s.timebase)
  if relock then
    let s := raise .refBack s
    match w.rollingNumber with
    | some m => setRefStep m s
    | none => s
  else s

/-- A REFIN rising edge (R17, R18). -/
def refEdge (s : State) : State :=
  match s.cg.ref, s.cg.window, s.cg.period with
  | .off, _, _ => s
  | .seeking, _, _ => s.mapCg (Cadence.seekEdge s.timebase)
  | _, some w, some p => if w.holds s.timebase then attributeEdge w p s else s
  | _, _, _ => s

/-- The Cadence Generator when a window closes with no edge (R19, R20, R21). -/
def Cadence.closeWindow (w : RefWindow) (p : Nat) (c : Cadence) : Cadence :=
  let empty := min (c.lock.empty + 1) 2
  { c with
    ref := if empty = 2 then .holdover else c.ref
    lock := { c.lock with prevEdge := none, empty := empty }
    nextMark := some (after w.mark p)
    window := some ⟨after w.mark p, p / 8, none⟩ }

/-- The close of a window whose mark has been issued; the second in a row in LOCKED raises REF_LOST (R21). -/
def closeRefWindow (w : RefWindow) (p : Nat) (s : State) : State :=
  let s := waitUntil (after w.mark w.half) s
  let lost := decide (s.cg.ref = .locked) && decide (1 ≤ s.cg.lock.empty)
  let s := s.mapCg (Cadence.closeWindow w p)
  if lost then raise .refLost s else s

/-! ## Marks -/

/-- What the next mark is: by the rig state and, with source REF, by whether the lead mark is still owed (R4, R9, R24). -/
def State.markKind (s : State) : MarkKind :=
  match s.cg.rig with
  | .setup => .setupReference
  | .rolling => if s.cg.leadOwed then .lead else .rolling
  | .draining => .drain

/-- The time of the next mark, when the part is not held and the mark is of a kind. -/
def State.dueMark (s : State) (kind : MarkKind) : Option Time :=
  if s.isHeld ∨ s.markKind ≠ kind then none else s.cg.nextMark

/-- The mark scheduled for `m` is issued. With source FREE the plan begun at it schedules the next (R4). With source REF
the owed REF_STEP is cleared; the mark after it is already scheduled if an edge was attributed before the event, and waits
for the window otherwise (R18, R19, R22). -/
def Cadence.passMark (m : Time) (number : Option MarkNumber) (c : Cadence) : Cadence :=
  match c.source with
  | .free => { c with nextMark := none }
  | .ref =>
    let lock : LockRecord := { c.lock with stepOwed := false }
    match c.window with
    | none => { c with lock := lock, nextMark := none }
    | some w =>
      if w.mark = m then
        { c with lock := lock, nextMark := none, window := some { w with event := some ⟨c.period.getD 0, number⟩ } }
      else { c with lock := lock, nextMark := some w.mark }

/-- A mark issued while the reference is lost (R22). -/
def Cadence.inHoldover (c : Cadence) : Bool := decide (c.ref = .holdover)

/-- A rolling mark at the present instant, scheduled for `m`, for which a plan is prepared: numbered, handed to the
Pairing Engine, the eye ports and the Trigger Planner, which begins the next plan (R4, R84, R132). -/
def rollMark (m : Time) (plan : Plan) (s : State) : State :=
  let number := s.cg.markCounter
  let holdover := s.cg.inHoldover
  let refStep := s.cg.lock.stepOwed
  let s := s.mapCg fun c =>
    { c.passMark m (some number) with markCounter := number + 1, lastMark := some (number, s.timebase) }
  let s := ageWindow s
  let s := joinEye plan .right (joinEye plan .left s)
  let s := openWindow (s.openSlot plan number holdover refStep) s
  let s := layPulse plan .right number (layPulse plan .left number s)
  let s := s.mapTp fun t => { t with prepared := none }
  planStart s

/-- The event of a rolling mark. A plan still in progress completes first: it completes within 2,000 ticks of its start,
before the mark it prepares (R11, R70). With no plan there is no rolling mark (notes/assumptions/13.md). -/
def rollingMarkEvent (m : Time) (s : State) : State :=
  let s := completePlan (waitUntil m s)
  match s.tp.prepared with
  | none => s
  | some plan => rollMark m plan s

/-- The lead mark: the plan for the first rolling mark begins (R24). -/
def leadMarkEvent (m : Time) (s : State) : State :=
  let s := waitUntil m s
  planStart (s.mapCg fun c => { c.passMark m none with leadOwed := false })

/-- A setup reference mark carries the lock and nothing else (R24). -/
def setupMarkEvent (m : Time) (s : State) : State := (waitUntil m s).mapCg fun c => c.passMark m none

/-- The Cadence Generator at a drain mark: one more drain mark, and with source FREE the next at the period of the last
plan (R9). -/
def Cadence.drainMark (m now : Time) (c : Cadence) : Cadence :=
  let c := c.passMark m none
  { c with
    drainCount := c.drainCount + 1
    nextMark := match c.source with
      | .free => some (after now c.planPeriod)
      | .ref => c.nextMark }

/-- The Cadence Generator at drain completion: SETUP, drain count 0, and with source FREE no next mark (R10). -/
def Cadence.endDrain (c : Cadence) : Cadence :=
  { c with
    rig := .setup
    drainCount := 0
    nextMark := match c.source with
      | .free => none
      | .ref => c.nextMark }

end Sys2Proof.Machine
end

