-- ==== Sys2Proof/Machine/AgreementOps.lean ====
section
/-! DEFINITION. The Agreement Engine (spec/03_mode_agreement.md): feasibility, ranking and the choice (R52 to R56), what a
CAPS, an ACCEPT, a REFUSE and a departure do (R49 to R51, R57 to R64), and the partial reset of an eye (R29). -/

namespace Sys2Proof.Machine

/-! ## The choice (R52 to R56) -/

/-- The eye is told to reverse its readout (R52). -/
def reverses (o : Orientation) (m : SensorMode) : Bool := decide (o = .reflected) && m.reversed.isSome

/-- The eye scans the scene upward (R52). -/
def scansUpward (o : Orientation) (m : SensorMode) : Bool := decide (o = .reflected) && m.reversed.isNone

/-- The trigger offset of each eye without its exposure (R54). -/
def choiceOffsets (t : PerEye Nat) : PerEye Nat :=
  ⟨max t.left t.right - t.left, max t.left t.right - t.right⟩

/-- The agreement record a pair of offers makes under a take frame (R52, R54, R55). -/
def pairAgreement (f : TakeFrame) (l r : Offer) : Agreement :=
  let mode : PerEye SensorMode := ⟨l.mode, r.mode⟩
  let reversed : PerEye Bool := .of fun e => reverses (f.orientation.get e) (mode.get e)
  let up : PerEye Bool := .of fun e => scansUpward (f.orientation.get e) (mode.get e)
  let readout : PerEye Nat := .of fun e => (mode.get e).readout (reversed.get e)
  let trig := choiceOffsets (.of fun e => anchorOffset (readout.get e) (up.get e) f.anchor)
  let floor := max readout.left readout.right + max l.mode.blank r.mode.blank
  { index := ⟨l.index, r.index⟩
    mode := mode
    reversed := reversed
    scansUp := up
    floor := floor
    ceiling := min (min l.mode.maxRate r.mode.maxRate) (perTick floor)
    skew := edgeSkew (edgeDifference trig readout up 0) (edgeDifference trig readout up 1024)
    opposed := decide (up.left ≠ up.right) }

/-- The five tests of a pair of offers (R53). -/
def feasible (f : TakeFrame) (exclusion : List (Nat × Nat)) (l r : Offer) : Bool :=
  decide (l.mode.geometry = r.mode.geometry) &&
    (decide (f.geometry = 255) || decide (l.mode.geometry = f.geometry)) &&
    !exclusion.contains (l.index, r.index) &&
    decide (f.rateNeeded ≤ l.mode.maxRate) && decide (f.rateNeeded ≤ r.mode.maxRate) &&
    decide ((pairAgreement f l r).floor ≤ perTick f.rateNeeded) &&
    (!(pairAgreement f l r).opposed || f.opposedAccepted)

/-- The records of all feasible pairs. -/
def feasiblePairs (f : TakeFrame) (exclusion : List (Nat × Nat)) (l r : List Offer) : List Agreement :=
  l.flatMap fun a => (r.filter (feasible f exclusion a)).map (pairAgreement f a)

/-- The order of preference: least skew, highest ceiling, lowest L index, lowest R index (R55). -/
def preferred (a b : Agreement) : Bool :=
  if a.skew ≠ b.skew then decide (a.skew < b.skew)
  else if a.ceiling ≠ b.ceiling then decide (b.ceiling < a.ceiling)
  else if a.index.left ≠ b.index.left then decide (a.index.left < b.index.left)
  else decide (a.index.right < b.index.right)

/-- The first pair of a list in the order of preference. -/
def bestOf : List Agreement → Option Agreement
  | [] => none
  | a :: rest =>
    match bestOf rest with
    | none => some a
    | some b => if preferred b a then some b else some a

/-- The pair the choice takes from two offer lists (R53 to R55). -/
def choose (f : TakeFrame) (exclusion : List (Nat × Nat)) (l r : List Offer) : Option Agreement :=
  bestOf (feasiblePairs f exclusion l r)

/-- The first pair is the one in force, field for field (R56, Equal). -/
def sameChoice (a b : Agreement) : Bool := decide (a.index = b.index) && decide (a.mode = b.mode)

/-- Store an agreement record. -/
def setAgreement (a : Option Agreement) (s : State) : State := s.mapAe fun ae => { ae with agreement := a }

/-- Place one eye after an Equal choice: an AGREED eye stays, with HALT written again if its CAPS caused the choice; any
other eye is proposed (R56). -/
def placeEqual (cause : Option Eye) (a : Agreement) (e : Eye) (s : State) : State :=
  if (s.eye e).state = .agreed then
    if cause = some e then writeDirective e .halt s else s
  else proposeEye e a s

/-- Place both eyes by the outcome of a choice (R56). -/
def placeChoice (cause : Option Eye) (outcome : Option Agreement) (s : State) : State :=
  match outcome with
  | none =>
    let s := setAgreement none s
    raise .noCommonMode (waitEye .right .held .noCommonMode (waitEye .left .held .noCommonMode s))
  | some a =>
    let equal := match s.ae.agreement with
      | some b => sameChoice a b
      | none => false
    let s := setAgreement (some a) s
    if equal then placeEqual cause a .right (placeEqual cause a .left s)
    else proposeEye .right a (proposeEye .left a s)

/-- One eye holds CAPS and its partner does not: no record, and the eye waits for its peer (R51, R56, R59). -/
def awaitPeer (e : Eye) (s : State) : State := waitEye e .held .awaitPeer (setAgreement none s)

/-- A cause of the choice (R56): the choice runs when both eyes hold CAPS. -/
def runChoice (cause : Option Eye) (s : State) : State :=
  match s.eyes.left.caps, s.eyes.right.caps with
  | some l, some r => placeChoice cause (choose s.ae.frame s.ae.exclusion l.offers r.offers) s
  | some _, none => awaitPeer .left s
  | none, some _ => awaitPeer .right s
  | none, none => setAgreement none s

/-! ## CAPS (R49 to R51, R61, R62) -/

/-- Empty the exclusion set (R58). -/
def clearExclusion (s : State) : State := s.mapAe fun a => { a with exclusion := [] }

/-- Hold a camera's CAPS, or clear it, and evaluate the eye's binding (R50, R51, R61, R105). -/
def holdCaps (e : Eye) (c : Option Caps) (s : State) : State :=
  evalBinding e (s.mapEye e fun p => { p with caps := c })

/-- S_e(last) is cleared when a new CAPS takes an eye out of AGREED (R67). -/
def forgetReadout (e : Eye) (s : State) : State :=
  s.mapTp fun t => { t with lastReadout := t.lastReadout.set e none }

/-- A valid CAPS in SETUP (R51). -/
def validCapsSetup (e : Eye) (c : Caps) (s : State) : State :=
  let was := (s.eye e).state
  let s := runChoice (some e) (holdCaps e (some c) (clearExclusion s))
  if was.inTake && !(s.eye e).state.inTake then forgetReadout e s else s

/-- An offer matches the stored one (R62). -/
def rejoins (a : Agreement) (e : Eye) (o : Offer) : Bool :=
  decide (o.mode.geometry = (a.mode.get e).geometry) && decide (o.mode.normal = (a.mode.get e).normal) &&
    decide (o.mode.reversed = (a.mode.get e).reversed) && decide (o.mode.blank = (a.mode.get e).blank) &&
    decide (a.ceiling ≤ o.mode.maxRate)

/-- The lowest index of the matching offers (R62). -/
def rejoinIndex (a : Agreement) (e : Eye) (offers : List Offer) : Option Nat :=
  ((offers.filter (rejoins a e)).map Offer.index).min?

/-- The rejoin test of an eye out of the take (R62). -/
def rejoinTest (e : Eye) (c : Caps) (s : State) : State :=
  match s.ae.agreement with
  | none => waitEye e .held .noMatch s
  | some a =>
    match rejoinIndex a e c.offers with
    | none => waitEye e .held .noMatch s
    | some k =>
      let a := { a with index := a.index.set e k }
      proposeEye e a (setAgreement (some a) s)

/-- An eye of the take leaves it for HELD or LISTENING by a new CAPS: EYE_CHANGE, and the test of the other eye (R30,
R50, R61). -/
def leaveTake (e : Eye) (s : State) : State := testLoss e (raise .eyeChange s)

/-- A valid CAPS in ROLLING or DRAINING (R61). -/
def validCapsTake (e : Eye) (c : Caps) (s : State) : State :=
  let was := (s.eye e).state
  let s := holdCaps e (some c) (clearExclusion s)
  let s := if was.inTake then leaveTake e (setEyeState e .held (departEye e s)) else s
  rejoinTest e c s

/-- The other eye after an invalid CAPS in SETUP (R50). -/
def partnerWaits (e : Eye) (s : State) : State :=
  if (s.eye e).caps.isSome then waitEye e .held .awaitPeer s
  else if (s.eye e).state = .listening then writeDirective e (.wait (s.ae.reason.get e)) s
  else s

/-- An invalid CAPS (R50). -/
def invalidCaps (e : Eye) (s : State) : State :=
  let was := (s.eye e).state
  let s := if was.inTake then departEye e s else s
  let s := waitEye e .listening .badCaps s
  let s := holdCaps e none (clearExclusion s)
  if s.cg.rig = .setup then partnerWaits e.other (setAgreement none s)
  else if was.inTake then leaveTake e s
  else s

/-- The Agreement Engine judges a CAPS (R49). -/
def takeCaps (e : Eye) (raw : RawCaps) (s : State) : State :=
  match judgeCaps raw with
  | none => invalidCaps e s
  | some c => if s.cg.rig = .setup then validCapsSetup e c s else validCapsTake e c s

/-! ## ACCEPT and REFUSE (R57, R58, R63) -/

/-- The offer index of the AGREE in force for an eye; none when the eye is not PROPOSED (R57, R58). -/
def State.proposedIndex (s : State) (e : Eye) : Option Nat :=
  if (s.eye e).state = .proposed then s.ae.agreement.map fun a => a.index.get e else none

/-- An ACCEPT taken (R57, R63). -/
def takeAccept (e : Eye) (index : Byte) (s : State) : State :=
  if s.proposedIndex e = some index.toNat then writeDirective e .halt (setEyeState e .agreed s)
  else countLost e s

/-- The pair named by a record joins the exclusion set (R58). -/
def excludePair (a : Agreement) (s : State) : State :=
  s.mapAe fun ae => { ae with exclusion := ae.exclusion ++ [(a.index.left, a.index.right)] }

/-- A REFUSE taken: in SETUP the pair is excluded and the choice runs again; during a take the eye is held with NO_MATCH
(R58, R63). -/
def takeRefuse (e : Eye) (index : Byte) (s : State) : State :=
  if s.proposedIndex e = some index.toNat then
    if s.cg.rig = .setup then
      match s.ae.agreement with
      | some a => runChoice none (excludePair a s)
      | none => s
    else waitEye e .held .noMatch s
  else countLost e s

/-! ## Leaving an attached state (R29, R59, R60) -/

/-- The port's side of the partial reset (R29); the port enable, the pin levels and the lost-report count are kept. -/
def EyePort.partialReset (p : EyePort) : EyePort :=
  { p with
    txn := none
    buffer := none
    fresh := false
    image := none
    slot := none
    timer := .idle }

/-- The Agreement Engine after an eye has left an attached state (R58, R59, R60). -/
def agreementAfterLeave (e : Eye) (s : State) : State :=
  let s := clearExclusion s
  if s.cg.rig = .setup then
    let s := setAgreement none s
    if (s.eye e.other).caps.isSome then waitEye e.other .held .awaitPeer s else s
  else s

/-- An eye leaves an attached state for DETACHED: the partial reset, with every block that depends on the eye (R29). -/
def leaveAttached (e : Eye) (s : State) : State :=
  let was := (s.eye e).state
  let s := s.mapEye e EyePort.partialReset
  let s := if was.inTake then departEye e s else clearPrevious e s
  let s := holdCaps e none (setEyeState e .detached s)
  let s := agreementAfterLeave e (raise .eyeChange s)
  if was.inTake then testLoss e s else s

/-! ## Return to SETUP (R10, R64) -/

/-- The choice at drain completion: both eyes hold CAPS and one of them is not AGREED (R64). -/
def returnChoice (s : State) : State :=
  let bothCaps := s.eyes.left.caps.isSome && s.eyes.right.caps.isSome
  let bothAgreed := decide (s.eyes.left.state = .agreed) && decide (s.eyes.right.state = .agreed)
  if bothCaps && !bothAgreed then runChoice none s else s

/-- A drain mark: the window ages, and the W-th ends the drain (R9, R10, R132). -/
def drainMarkEvent (m : Time) (s : State) : State :=
  let s := waitUntil m s
  let s := ageWindow (s.mapCg (Cadence.drainMark m s.timebase))
  if s.ae.frame.depth ≤ s.cg.drainCount then returnChoice (s.mapCg Cadence.endDrain) else s

end Sys2Proof.Machine
end

