-- ==== Sys2Proof/Machine/PortOps.lean ====
section
/-! DEFINITION. The transactions of the eye ports (spec/02_eye_links.md, R33 to R44) and of the rig control port
(spec/09_rig_control_port.md, R162 to R166), and the resets (R172 to R176). -/

namespace Sys2Proof.Machine

/-! ## Eye transactions -/

/-- A transaction of a port is served: the eye is attached and the port enabled (R34). -/
def EyePort.serves (p : EyePort) : Bool := p.state.attached && p.enabled

/-- The image a falling edge of SEL# latches: the directive buffer with the fresh flag, or none in a transaction that is
ignored (R34, R37). -/
def EyePort.latch (p : EyePort) : Option EyeImage :=
  if p.serves then p.buffer.map fun d => ⟨d, p.fresh⟩ else none

/-- The port at a falling edge of SEL# and `early` bits after it (R33, R34, R37). -/
def EyePort.start (early : Nat) (p : EyePort) : EyePort :=
  { p with
    selLow := true
    txn := some ⟨p.serves, early / 8, early / 8, false⟩
    image := p.latch
    sent := clockOut (imageBytes p.latch) early }

/-- A falling edge of an eye port's SEL# and `early` bits after it. While a reset is in force it starts nothing, and SDO
carries 0x00 (R34, R175). -/
def eyeStart (e : Eye) (early : Nat) (s : State) : State :=
  if (s.eye e).selLow then s
  else if s.isHeld then s.mapEye e fun p => { p with selLow := true, sent := thenZeros [] early }
  else s.mapEye e (EyePort.start early)

/-- The fresh flag at the end of a served transaction of `n` bits: cleared when the whole image went out and no write
came since the latch (R38). -/
def EyePort.freshAfter (p : EyePort) (t : EyeTxn) (n : Nat) : Bool :=
  if (imageBytes p.image).length ≤ n / 8 ∧ t.writeSinceLatch = false then false else p.fresh

/-- The port at the rising edge of SEL# that ends a served transaction of `n` bits (R33, R38). -/
def EyePort.finishServed (t : EyeTxn) (n : Nat) (p : EyePort) : EyePort :=
  { p with
    selLow := false
    txn := none
    fresh := p.freshAfter t n
    image := none
    sent := clockOut (imageBytes p.image) n }

/-- The port at the rising edge that ends a transaction that is not served: one that was ignored, or begun in a reset,
carried 0x00, and one that was abandoned carried 0x00 for the rest of it (R25, R34, R39). -/
def EyePort.finishUnserved (n : Nat) (p : EyePort) : EyePort :=
  { p with
    selLow := false
    sent := thenZeros (if p.txn.isSome then [] else p.sent) n
    txn := none
    image := none }

/-- A kind of report is expected in an eye state, with the eye's trigger list empty or not (R41). -/
def expectedIn (st : EyeState) (listEmpty : Bool) : Report → Bool
  | .caps _ => st.attached
  | .accept _ => decide (st = .proposed)
  | .refuse _ => decide (st = .proposed)
  | .frame _ => st.inTake && !listEmpty
  | .idle => st.attached

/-- What becomes of a report judged at the rising edge of SEL#: discarded and counted, dropped (IDLE), or placed in the
receive slot (R40 to R43). -/
def placeReport (e : Eye) (judged : Option Report) (s : State) : State :=
  match judged with
  | none => countLost e s
  | some r =>
    if !expectedIn (s.eye e).state (s.pe.triggers.get e).isEmpty r then countLost e s
    else if r = .idle then s
    else if (s.eye e).slot.isSome then countLost e s
    else s.mapEye e fun p => { p with slot := some r }

/-- The transaction record once `n` bits were clocked in each direction: each eighth bit completes a byte, and an
unfinished byte does not count (R33). -/
def EyeTxn.clock (n : Nat) (t : EyeTxn) : EyeTxn := { t with bytesIn := n / 8, bytesOut := n / 8 }

/-- A rising edge of SEL# after `n` bits in all, whose whole bytes R40 judges as `judged`. With SEL# high the command stands
for the whole transaction (notes/assumptions/4.md). -/
def eyeEnd (e : Eye) (n : Nat) (judged : Option Report) (s : State) : State :=
  let s := (eyeStart e 0 s).mapEye e fun p => { p with txn := p.txn.map (EyeTxn.clock n) }
  match (s.eye e).txn with
  | some t =>
    if t.served then placeReport e judged (s.mapEye e (EyePort.finishServed t n))
    else s.mapEye e (EyePort.finishUnserved n)
  | none => s.mapEye e (EyePort.finishUnserved n)

/-- The end of a transaction that carried a report with `pad` bits after it; a report that cannot be framed is discarded
(R178). -/
def eyeReport (e : Eye) (r : Report) (pad : Nat) (s : State) : State :=
  eyeEnd e (8 * (reportRecord r).length + pad) (if r.framable then some r else none) s

/-! ## Rig control transactions -/

/-- A falling edge of C_SEL# and `early` bits after it: the response buffer is latched (R162). While a reset is in force
the transaction is ignored and carries 0x00 (R166). -/
def rcpStart (early : Nat) (s : State) : State :=
  if s.rcp.selLow then s
  else
    s.mapRcp fun r =>
      if s.isHeld then { r with selLow := true, txn := none, sent := thenZeros [] early }
      else
        { r with
          selLow := true
          txn := some ⟨r.response, early / 8, early / 8⟩
          sent := clockOut (responseRecord r.response) early }

/-- A rising edge of C_SEL# after `n` bits in all; `decision` is what the transaction's judgement does. An ignored or
abandoned transaction decides nothing and carried 0x00 from there on (R166). With C_SEL# high the command stands for the
whole transaction (notes/assumptions/4.md). -/
def rcpEnd (n : Nat) (decision : State → State) (s : State) : State :=
  let s := (rcpStart 0 s).mapRcp fun r =>
    { r with txn := r.txn.map fun t => { t with bytesIn := n / 8, bytesOut := n / 8 } }
  match s.rcp.txn with
  | none => s.mapRcp fun r => { r with selLow := false, sent := thenZeros r.sent n }
  | some t =>
    decision (s.mapRcp fun r =>
      { r with selLow := false, txn := none, sent := clockOut (responseRecord t.response) n })

/-- The end of a transaction that carried a request with `pad` bits after it. A request whose length its kind does not
allow is answered FORMAT (R163). -/
def rcpRequest (r : Request) (pad : Nat) (decision : State → State) (s : State) : State :=
  rcpEnd (8 * (requestRecord r).length + pad)
    (if r.framable then decision else answer (requestKind r) .format) s

/-! ## Resets -/

/-- A reset comes into force: its flag is set in the reset-cause record and the part is held (R172 to R176). -/
def enforceReset (k : ResetKind) (s : State) : State :=
  let s := match k with
    | .powerOn => s.mapRcp fun r => { r with cause := ⟨true, false, false⟩ }
    | .pin => s.mapRcp fun r => { r with cause := { r.cause with pin := true } }
    | .request => s.mapRcp fun r => { r with cause := { r.cause with request := true } }
  let s := match k with
    | .powerOn => s.mapResets fun r => { r with powerOn := some 0 }
    | .pin => s.mapResets fun r => { r with pin := true }
    | .request => s.mapResets fun r => { r with request := some 0 }
  holdInReset s

/-- A reset of a kind is in force. -/
def Resets.has (k : ResetKind) (r : Resets) : Bool :=
  match k with
  | .powerOn => r.powerOn.isSome
  | .pin => r.pin
  | .request => r.request.isSome

/-- The ticks a reset still lasts by its own count; a pin reset lasts as long as RST# is low (R172 to R174). -/
def Resets.remaining (k : ResetKind) (r : Resets) : Nat :=
  match k with
  | .powerOn => Config.powerOnTicks - r.powerOn.getD 0
  | .pin => 0
  | .request => Config.requestResetTicks - r.request.getD 0

/-- The resets in force without one kind. -/
def Resets.lift (k : ResetKind) (r : Resets) : Resets :=
  match k with
  | .powerOn => { r with powerOn := none }
  | .pin => { r with pin := false }
  | .request => { r with request := none }

/-- The part is released: each enabled port with PRES high enters SETTLING and RESET_SEEN is added; the load of the lens
tables runs, since the store is LOADING (R25, R110, R175). -/
def releasePart (s : State) : State :=
  raise .resetSeen (s.mapEyes fun p => p.map fun port => if port.maySettle then port.settle else port)

/-- The release of a reset; the part is released with the last one (R175). -/
def endReset (k : ResetKind) (s : State) : State :=
  if s.resets.has k then
    let s := (advance (s.resets.remaining k) s).mapResets (Resets.lift k)
    if s.isHeld then s else releasePart s
  else s

end Sys2Proof.Machine
end

