-- ==== Sys2Proof/Machine/TakeRequests.lean ====
section
/-! DEFINITION. The requests that set up and run a take: PROFILE, SOURCE, RATE, SHUTTER, DEMAND, ROLL and CUT. For each, the
owner's decision, which stores the response, and the command that carries it. -/

namespace Sys2Proof.Machine

/-- PROFILE (R48): STATE outside SETUP, RANGE for a field out of range; otherwise the take frame is replaced, the
exclusion set emptied and the choice run. -/
def decideProfile (p : RawProfile) (s : State) : State :=
  if s.cg.rig ≠ .setup then answer 0x61 .state s
  else
    match readTakeFrame p with
    | none => answer 0x61 .range s
    | some f => answer 0x61 .done (runChoice none (clearExclusion (s.mapAe fun a => { a with frame := f })))

/-- The Cadence Generator after SOURCE changes the source to REF: the ramp ends at its target, and seeking starts (R15,
R16). -/
def Cadence.toRef (c : Cadence) : Cadence :=
  { c with
    source := .ref
    ref := .seeking
    period := none
    seek := ⟨none, none, 0⟩
    targetRate := (c.ramp.map Ramp.r1).getD c.targetRate
    ramp := none }

/-- The Cadence Generator after SOURCE changes the source to FREE: the reference is dropped with its scheduled mark
(R16). -/
def Cadence.toFree (c : Cadence) : Cadence :=
  { c with
    source := .free
    ref := .off
    period := none
    seek := ⟨none, none, 0⟩
    lock := ⟨none, 0, false⟩
    nextMark := none
    window := none }

/-- SOURCE (R16, R167): RANGE for no source, STATE outside SETUP; naming the source in force changes nothing. -/
def decideSource (code : Byte) (s : State) : State :=
  match sourceCode code with
  | none => answer 0x62 .range s
  | some source =>
    if s.cg.rig ≠ .setup then answer 0x62 .state s
    else if source = s.cg.source then answer 0x62 .done s
    else
      match source with
      | .ref => answer 0x62 .done (s.mapCg Cadence.toRef)
      | .free => answer 0x62 .done (s.mapCg Cadence.toFree)

/-- The target of a RATE limited to 1,000 to 240,000 mfps and then to the agreed ceiling (R13). -/
def limitedRate (ceiling target : Nat) : Nat := min (limit Config.minRate Config.maxRate target) ceiling

/-- The Cadence Generator after an accepted RATE (R13). -/
def Cadence.setRate (rate marks : Nat) (c : Cadence) : Cadence :=
  if marks = 0 then
    { c with targetRate := rate, ramp := none, currentRate := if c.rig = .rolling then c.currentRate else rate }
  else { c with targetRate := rate, ramp := some ⟨c.currentRate, rate, 0, marks⟩ }

/-- RATE (R13): STATE with source REF; CLAMPED when a limit changed the target. -/
def decideRate (target : BitVec 32) (marks : BitVec 16) (s : State) : State :=
  if s.cg.source = .ref then answer 0x63 .state s
  else
    let rate := limitedRate s.ae.ceiling target.toNat
    answer 0x63 (if rate = target.toNat then .done else .clamped) (s.mapCg (Cadence.setRate rate marks.toNat))

/-- A shutter value limited to the range of its mode (R75). -/
def limitedShutter (mode : ShutterMode) (value : Nat) : Nat :=
  match mode with
  | .angle => limit 1 36000 value
  | .time => limit 100 100000000 value

/-- SHUTTER (R75): RANGE for no mode; CLAMPED when the limit changed the value. -/
def decideShutter (mode : Byte) (value : BitVec 32) (s : State) : State :=
  match shutterCode mode with
  | none => answer 0x64 .range s
  | some m =>
    let v := limitedShutter m value.toNat
    answer 0x64 (if v = value.toNat then .done else .clamped)
      (s.mapTp fun t => { t with shutterMode := m, shutterValue := v })

/-- The held demand after a DEMAND: each present axis takes its value (R115). -/
def newDemand (present : PerAxis Bool) (value : PerAxis Nat) (held : PerAxis (Option Nat)) : PerAxis (Option Nat) :=
  .of fun a => if present.get a then some (value.get a) else held.get a

/-- DEMAND (R115): RANGE for an undefined axis. -/
def decideDemand (axes : Byte) (focus iris zoom : BitVec 16) (s : State) : State :=
  if axisSetDefined axes = false then answer 0x65 .range s
  else
    answer 0x65 .done (s.mapLme fun l =>
      { l with demand := newDemand (axisSet axes) ⟨focus.toNat, iris.toNat, zoom.toNat⟩ l.demand })

/-- The conditions of ROLL (R3): SETUP, both eyes AGREED, and with source REF a lock whose P the agreement allows. -/
def State.mayRoll (s : State) : Bool :=
  decide (s.cg.rig = .setup) && decide (s.eyes.left.state = .agreed) && decide (s.eyes.right.state = .agreed) &&
    (match s.cg.source, s.cg.period, s.ae.agreement with
      | .free, _, _ => true
      | .ref, some p, some a => decide (s.cg.ref = .locked) && decide (a.floor ≤ p) && decide (perTick p ≤ a.ceiling)
      | .ref, _, _ => false)

/-- A take starts: the take number counts up, the rig is ROLLING, last readout starts and previous targets are cleared;
with source FREE the first plan begins, with source REF the lead mark is owed (R3, R24, R67, R121). -/
def startTake (s : State) : State :=
  let s := s.mapCg fun c =>
    { c with take := c.take + 1, rig := .rolling, drainCount := 0, leadOwed := decide (c.source = .ref) }
  let s := s.mapTp fun t => { t with lastReadout := .both none }
  let s := clearPrevious .right (clearPrevious .left s)
  if s.cg.source = .free then planStart s else s

/-- ROLL (R3). -/
def decideRoll (s : State) : State :=
  if s.mayRoll then answer 0x66 .done (startTake s) else answer 0x66 .state s

/-- CUT (R6). -/
def decideCut (s : State) : State :=
  if s.cg.rig = .rolling then answer 0x67 .done (enterDraining s) else answer 0x67 .state s

/-! ## The commands -/

/-- PROFILE. -/
def execProfile (p : RawProfile) (pad : Nat) (s : State) : Host.Outcome State Fault Refusal :=
  .next (rcpRequest (.profile p) pad (decideProfile p) s)

/-- SOURCE. -/
def execSource (code : Byte) (pad : Nat) (s : State) : Host.Outcome State Fault Refusal :=
  .next (rcpRequest (.source code) pad (decideSource code) s)

/-- RATE. -/
def execRate (target : BitVec 32) (marks : BitVec 16) (pad : Nat) (s : State) : Host.Outcome State Fault Refusal :=
  .next (rcpRequest (.rate target marks) pad (decideRate target marks) s)

/-- SHUTTER. -/
def execShutter (mode : Byte) (value : BitVec 32) (pad : Nat) (s : State) : Host.Outcome State Fault Refusal :=
  .next (rcpRequest (.shutter mode value) pad (decideShutter mode value) s)

/-- DEMAND. -/
def execDemand (axes : Byte) (focus iris zoom : BitVec 16) (pad : Nat) (s : State) :
    Host.Outcome State Fault Refusal :=
  .next (rcpRequest (.demand axes focus iris zoom) pad (decideDemand axes focus iris zoom) s)

/-- ROLL. -/
def execRoll (pad : Nat) (s : State) : Host.Outcome State Fault Refusal :=
  .next (rcpRequest .roll pad decideRoll s)

/-- CUT. -/
def execCut (pad : Nat) (s : State) : Host.Outcome State Fault Refusal :=
  .next (rcpRequest .cut pad decideCut s)

end Sys2Proof.Machine
end

