-- ==== Sys2Proof/Machine/TableRequests.lean ====
section
/-! DEFINITION. The Lens Table Store's requests (spec/05_lens_tables.md): STAGE_RESET, STAGE_WRITE, COMMIT, DISCARD, SAVE and
READ_SLOT; and the store's two completions, SAVE_COMPLETE and LOAD_COMPLETE. -/

namespace Sys2Proof.Machine

/-- STAGE_RESET (R95). -/
def decideStageReset (s : State) : State :=
  answer 0x69 .done (s.mapLts fun l => { l with staging := emptyStaging })

/-- STAGE_WRITE (R96): RANGE, with no byte written, when the run would pass byte 399. -/
def decideStageWrite (offset : BitVec 16) (data : List Byte) (s : State) : State :=
  if Config.stagingBytes < offset.toNat + data.length then answer 0x6A .range s
  else answer 0x6A .done (s.mapLts fun l => { l with staging := writeBytes l.staging offset.toNat data })

/-- COMMIT (R97 to R100): RANGE, BUSY, BAD_TABLE, DUP_LENS in that order; then applied at once or held. -/
def decideCommit (slot : Byte) (s : State) : State :=
  if 8 ≤ slot.toNat then answer 0x6B .range s
  else if s.lts.store = .loading then answer 0x6B .busy s
  else
    match readImage s.lts.staging with
    | none => answer 0x6B .badTable s
    | some copy =>
      if s.lts.clashes slot.toNat copy.table.identity then answer 0x6B .dupLens s
      else answer 0x6B .done (changeSlot slot.toNat (.commit copy) s)

/-- DISCARD (R104). -/
def decideDiscard (slot : Byte) (s : State) : State :=
  if 8 ≤ slot.toNat then answer 0x6C .range s
  else if s.lts.store = .loading then answer 0x6C .busy s
  else answer 0x6C .done (changeSlot slot.toNat .discard s)

/-- The store once a save begins: the snapshot is the slot's image, and the place is marked unfinished (R107, R109). -/
def LensStore.beginSave (slot : Nat) (now : Time) (l : LensStore) : LensStore :=
  { l with
    store := .saving
    saving := some ⟨slot, (l.slot slot).image, now⟩
    nv := l.nv.set slot .unfinished }

/-- SAVE (R107): RANGE, then BUSY while LOADING or SAVING. -/
def decideSave (slot : Byte) (s : State) : State :=
  if 8 ≤ slot.toNat then answer 0x6D .range s
  else if s.lts.store ≠ .ready then answer 0x6D .busy s
  else answer 0x6D .done (s.mapLts (LensStore.beginSave slot.toNat s.timebase))

/-- READ_SLOT (R112). -/
def decideReadSlot (slot : Byte) (offset : BitVec 16) (length : Byte) (s : State) : State :=
  if 8 ≤ slot.toNat ∨ length.toNat < 1 ∨ 64 < length.toNat ∨ Config.stagingBytes < offset.toNat + length.toNat then
    answer 0x6E .range s
  else respond 0x6E .done (readBytes (s.lts.slot slot.toNat).image offset.toNat length.toNat) s

/-- The store when the write of a save completes (R108). -/
def LensStore.endSave (r : SaveRecord) (l : LensStore) : LensStore :=
  { l.mapSlot r.slot (fun slot => { slot with bad := false }) with
    store := .ready
    saving := none
    nv := l.nv.set r.slot (.image r.image) }

/-- The write of the save in progress completes, no earlier than 2,000,000 ticks after its acceptance (R108). -/
def completeSave (s : State) : State :=
  match s.lts.saving with
  | none => s
  | some r =>
    let s := waitUntil (after r.accepted Config.saveMinTicks) s
    raise .storeDone (s.mapLts (LensStore.endSave r))

/-- The load completes, if one is under way (R110). -/
def completeLoad (s : State) : State :=
  if s.lts.store = .loading ∧ s.isHeld = false then finishLoad s else s

/-! ## The commands -/

/-- STAGE_RESET. -/
def execStageReset (pad : Nat) (s : State) : Host.Outcome State Fault Refusal :=
  .next (rcpRequest .stageReset pad decideStageReset s)

/-- STAGE_WRITE. -/
def execStageWrite (offset : BitVec 16) (data : List Byte) (pad : Nat) (s : State) :
    Host.Outcome State Fault Refusal :=
  .next (rcpRequest (.stageWrite offset data) pad (decideStageWrite offset data) s)

/-- COMMIT. -/
def execCommit (slot : Byte) (pad : Nat) (s : State) : Host.Outcome State Fault Refusal :=
  .next (rcpRequest (.commit slot) pad (decideCommit slot) s)

/-- DISCARD. -/
def execDiscard (slot : Byte) (pad : Nat) (s : State) : Host.Outcome State Fault Refusal :=
  .next (rcpRequest (.discard slot) pad (decideDiscard slot) s)

/-- SAVE. -/
def execSave (slot : Byte) (pad : Nat) (s : State) : Host.Outcome State Fault Refusal :=
  .next (rcpRequest (.save slot) pad (decideSave slot) s)

/-- READ_SLOT. -/
def execReadSlot (slot : Byte) (offset : BitVec 16) (length : Byte) (pad : Nat) (s : State) :
    Host.Outcome State Fault Refusal :=
  .next (rcpRequest (.readSlot slot offset length) pad (decideReadSlot slot offset length) s)

/-- SAVE_COMPLETE. -/
def execSaveComplete (s : State) : Host.Outcome State Fault Refusal := .next (completeSave s)

/-- LOAD_COMPLETE. -/
def execLoadComplete (s : State) : Host.Outcome State Fault Refusal := .next (completeLoad s)

end Sys2Proof.Machine
end

