-- ==== Sys2Proof/Machine/PortRequests.lean ====
section
/-! DEFINITION. The requests on ports and on the rig control port itself: PORT_ENABLE, PORT_DISABLE, QUERY, CLEAR_NOTICES and
RESET; a request known only by its bytes; and the transactions RCP_TRANSACTION_START, COLLECTION and
RCP_RECORD_REFUSED. -/

namespace Sys2Proof.Machine

/-- A PORT enable (R32): a port already enabled is not changed; one with PRES high enters SETTLING. -/
def enablePort (e : Eye) (s : State) : State :=
  if (s.eye e).enabled then s
  else
    s.mapEye e fun p =>
      let p := { p with enabled := true }
      if p.maySettle then p.settle else p

/-- A PORT disable (R31), by the eye's state. -/
def disablePort (e : Eye) (s : State) : State :=
  if (s.eye e).enabled = false then s
  else
    let off := s.mapEye e fun p => { p with enabled := false }
    if (s.eye e).state.attached then leaveAttached e off
    else off.mapEye e fun p => { p with state := .detached, timer := .idle }

/-- PORT (R31, R32, R180): RANGE for a field that names no eye or no action. -/
def decidePort (eye action : Byte) (s : State) : State :=
  match eyeCode eye, yesNo action with
  | some e, some true => answer 0x68 .done (enablePort e s)
  | some e, some false => answer 0x68 .done (disablePort e s)
  | _, _ => answer 0x68 .range s

/-- QUERY (R170, R171): the contents as they stand at the decision. -/
def decideQuery (s : State) : State := respond 0x6F .done s.queryBody s

/-- The rig control port after an accepted CLEAR_NOTICES: the named notices leave the set; naming RESET_SEEN clears the
reset-cause record (R169). -/
def RigPort.clearNamed (named : BitVec 8) (r : RigPort) : RigPort :=
  { r with
    notices := r.notices &&& ~~~named
    cause := if hasNotice named .resetSeen then ⟨false, false, false⟩ else r.cause }

/-- CLEAR_NOTICES (R169, 10.7): RANGE when the first byte names an undefined notice. -/
def decideClearNotices (mask : BitVec 16) (s : State) : State :=
  if 256 ≤ mask.toNat then answer 0x70 .range s
  else answer 0x70 .done (s.mapRcp (RigPort.clearNamed (mask.setWidth 8)))

/-- RESET (R174): DONE is stored and at that instant a request reset comes into force, which empties the response buffer
to NONE. -/
def decideReset (s : State) : State := enforceReset .request (answer 0x71 .done s)

/-- The owner's decision of a request (R164, R167). -/
def decideRequest : Request → State → State
  | .profile p => decideProfile p
  | .source code => decideSource code
  | .rate target marks => decideRate target marks
  | .shutter mode value => decideShutter mode value
  | .demand axes focus iris zoom => decideDemand axes focus iris zoom
  | .roll => decideRoll
  | .cut => decideCut
  | .port eye action => decidePort eye action
  | .stageReset => decideStageReset
  | .stageWrite offset data => decideStageWrite offset data
  | .commit slot => decideCommit slot
  | .discard slot => decideDiscard slot
  | .save slot => decideSave slot
  | .readSlot slot offset length => decideReadSlot slot offset length
  | .query => decideQuery
  | .clearNotices mask => decideClearNotices mask
  | .reset => decideReset

/-- What the judgement of a transaction does (R163): nothing for a collection, FORMAT or UNKNOWN with the echo, or the
request's decision. -/
def actOn : Verdict → State → State
  | .collection, s => s
  | .format echo, s => answer echo .format s
  | .unknown echo, s => answer echo .unknown s
  | .request r, s => decideRequest r s

/-- The end of a transaction known by its bits: its whole bytes are judged (R33, R163). -/
def rcpBits (bits : List Bool) (s : State) : State := rcpEnd bits.length (actOn (judgeTransaction (wholeBytes bits))) s

/-! ## The commands -/

/-- PORT with action enable. -/
def execPortEnable (eye : Byte) (pad : Nat) (s : State) : Host.Outcome State Fault Refusal :=
  .next (rcpRequest (.port eye 1) pad (decidePort eye 1) s)

/-- PORT with action disable. -/
def execPortDisable (eye : Byte) (pad : Nat) (s : State) : Host.Outcome State Fault Refusal :=
  .next (rcpRequest (.port eye 0) pad (decidePort eye 0) s)

/-- QUERY. -/
def execQuery (pad : Nat) (s : State) : Host.Outcome State Fault Refusal :=
  .next (rcpRequest .query pad decideQuery s)

/-- CLEAR_NOTICES. -/
def execClearNotices (mask : BitVec 16) (pad : Nat) (s : State) : Host.Outcome State Fault Refusal :=
  .next (rcpRequest (.clearNotices mask) pad (decideClearNotices mask) s)

/-- RESET. -/
def execReset (pad : Nat) (s : State) : Host.Outcome State Fault Refusal :=
  .next (rcpRequest .reset pad decideReset s)

/-- A falling edge of C_SEL# (R162). -/
def execRcpTransactionStart (s : State) (early : Nat := 0) : Host.Outcome State Fault Refusal := .next (rcpStart early s)

/-- A transaction of `count` bits whose whole bytes are 0x00, or that has none (R163). -/
def execCollection (count : Nat) (s : State) : Host.Outcome State Fault Refusal :=
  .next (rcpBits (List.replicate count false) s)

/-- A transaction whose record is refused at the port (R163). The bytes decide: FORMAT, UNKNOWN, or what else R163 makes of
them (notes/assumptions/6.md). -/
def execRcpRecordRefused (bits : List Bool) (s : State) : Host.Outcome State Fault Refusal :=
  .next (rcpBits bits s)

end Sys2Proof.Machine
end

