-- ==== Sys2Proof/Machine/EyeCommands.lean ====
section
/-! DEFINITION. The commands of the eye ports (spec/02_eye_links.md): transactions and reports, the owners taking reports from
the receive slots (R43), and presence (R26 to R28). -/

namespace Sys2Proof.Machine

/-! ## Transactions -/

/-- A falling edge of SEL# (R34, R37). -/
def execEyeTransactionStart (e : Eye) (s : State) (early : Nat := 0) : Host.Outcome State Fault Refusal :=
  .next (eyeStart e early s)

/-- The rising edge of SEL# after a CAPS report (R40 to R43). -/
def execCapsReceived (e : Eye) (caps : RawCaps) (pad : Nat) (s : State) : Host.Outcome State Fault Refusal :=
  .next (eyeReport e (.caps caps) pad s)

/-- The rising edge of SEL# after an ACCEPT report. -/
def execAcceptReceived (e : Eye) (index : Byte) (pad : Nat) (s : State) : Host.Outcome State Fault Refusal :=
  .next (eyeReport e (.accept index) pad s)

/-- The rising edge of SEL# after a REFUSE report. -/
def execRefuseReceived (e : Eye) (index : Byte) (pad : Nat) (s : State) : Host.Outcome State Fault Refusal :=
  .next (eyeReport e (.refuse index) pad s)

/-- The rising edge of SEL# after a FRAME report. -/
def execFrameReceived (e : Eye) (frame : RawFrame) (pad : Nat) (s : State) : Host.Outcome State Fault Refusal :=
  .next (eyeReport e (.frame frame) pad s)

/-- The rising edge of SEL# after an IDLE report (R42). -/
def execIdle (e : Eye) (pad : Nat) (s : State) : Host.Outcome State Fault Refusal := .next (eyeReport e .idle pad s)

/-- The rising edge of SEL# after bits whose whole bytes R40 judges (R33, R40, R44). The bytes decide: a record that R40
accepts is not discarded (notes/assumptions/6.md). -/
def execReportDiscarded (e : Eye) (bits : List Bool) (s : State) : Host.Outcome State Fault Refusal :=
  .next (eyeEnd e bits.length (readReport (wholeBytes bits)) s)

/-! ## Taking a report (R43) -/

/-- The receive slot is emptied by its owner. -/
def emptySlot (e : Eye) (s : State) : State := s.mapEye e fun p => { p with slot := none }

/-- The CAPS in an eye's receive slot is taken and judged (R49). -/
def execCapsTaken (e : Eye) (s : State) : Host.Outcome State Fault Refusal :=
  match (s.eye e).slot with
  | some (.caps raw) => .next (takeCaps e raw (emptySlot e s))
  | _ => .next s

/-- The ACCEPT in an eye's receive slot is taken and judged (R57). -/
def execAcceptTaken (e : Eye) (s : State) : Host.Outcome State Fault Refusal :=
  match (s.eye e).slot with
  | some (.accept index) => .next (takeAccept e index (emptySlot e s))
  | _ => .next s

/-- The REFUSE in an eye's receive slot is taken and judged (R58, R63). -/
def execRefuseTaken (e : Eye) (s : State) : Host.Outcome State Fault Refusal :=
  match (s.eye e).slot with
  | some (.refuse index) => .next (takeRefuse e index (emptySlot e s))
  | _ => .next s

/-- The FRAME in an eye's receive slot is taken and matched (R136, R138). -/
def execFrameTaken (e : Eye) (s : State) : Host.Outcome State Fault Refusal :=
  match (s.eye e).slot with
  | some (.frame f) => .next (matchFrame e f (emptySlot e s))
  | _ => .next s

/-! ## Presence (R26 to R28) -/

/-- The port at a rising PRES: a DETACHED eye of an enabled port enters SETTLING; in an attached eye the timer stops and
returns to 0 (R26, R28). -/
def EyePort.rise (p : EyePort) : EyePort :=
  let p := { p with pres := true }
  if p.maySettle then p.settle else if p.state.attached then { p with timer := .low 0 } else p

/-- The port at a falling PRES: a SETTLING eye returns to DETACHED; in an attached eye the timer counts low time from 0
(R27, R28). -/
def EyePort.fall (p : EyePort) : EyePort :=
  let p := { p with pres := false }
  if p.state = .settling then { p with state := .detached, timer := .idle }
  else if p.state.attached then { p with timer := .low 0 }
  else p

/-- A rising edge of PRES. While a reset is in force only the level changes (R175). -/
def execPresRise (e : Eye) (s : State) : Host.Outcome State Fault Refusal :=
  if s.isHeld then .next (s.mapEye e fun p => { p with pres := true })
  else if (s.eye e).pres then .next s
  else .next (s.mapEye e EyePort.rise)

/-- A falling edge of PRES. While a reset is in force only the level changes (R175). -/
def execPresFall (e : Eye) (s : State) : Host.Outcome State Fault Refusal :=
  if s.isHeld then .next (s.mapEye e fun p => { p with pres := false })
  else if (s.eye e).pres = false then .next s
  else .next (s.mapEye e EyePort.fall)

/-- The ticks until an eye's debounce completes: it is SETTLING with PRES high (R27). -/
def EyePort.settleLeft (p : EyePort) : Option Nat :=
  match p.state, p.timer, p.pres with
  | .settling, .high c, true => some (Config.settleTicks - c)
  | _, _, _ => none

/-- The debounce of an eye completes: LISTENING, WAIT AWAIT_CAPS, EYE_CHANGE (R27, R47). -/
def settleEye (e : Eye) (s : State) : State :=
  let s := waitEye e .listening .awaitCaps s
  raise .eyeChange (s.mapEye e fun p => { p with timer := .low 0 })

/-- PRES has been high for 10,000,000 ticks (R27); the clock runs on to that tick. -/
def execSettleComplete (e : Eye) (s : State) : Host.Outcome State Fault Refusal :=
  match (s.eye e).settleLeft with
  | some n => .next (settleEye e (advance n s))
  | none => .next s

/-- The ticks until an eye is detached: it is attached and PRES is low (R28). -/
def EyePort.detachLeft (p : EyePort) : Option Nat :=
  match p.state.attached, p.timer, p.pres with
  | true, .low c, false => some (Config.detachTicks - c)
  | _, _, _ => none

/-- PRES has been low for 100,000 ticks (R28, R29); the clock runs on to that tick. -/
def execDetach (e : Eye) (s : State) : Host.Outcome State Fault Refusal :=
  match (s.eye e).detachLeft with
  | some n => .next (leaveAttached e (advance n s))
  | none => .next s

end Sys2Proof.Machine
end

