-- ==== Sys2Proof/Machine/MarkCommands.lean ====
section
/-! DEFINITION. The commands of the marks, the plan, the reference and the TRIG line (spec/01_frame_cadence.md,
spec/04_trigger_planning.md). A mark or pulse that is not due in the state does nothing (notes/assumptions/2.md). -/

namespace Sys2Proof.Machine

/-- A rolling mark (R4, R84, R131, R132). -/
def execRollingMark (s : State) : Host.Outcome State Fault Refusal :=
  match s.dueMark .rolling with
  | some m => .next (rollingMarkEvent m s)
  | none => .next s

/-- The plan in progress completes (R70). -/
def execPlanComplete (s : State) : Host.Outcome State Fault Refusal := .next (completePlan s)

/-- A drain mark (R9, R10). -/
def execDrainMark (s : State) : Host.Outcome State Fault Refusal :=
  match s.dueMark .drain with
  | some m => .next (drainMarkEvent m s)
  | none => .next s

/-- The lead mark of a take with source REF (R24). -/
def execLeadMark (s : State) : Host.Outcome State Fault Refusal :=
  match s.dueMark .lead with
  | some m => .next (leadMarkEvent m s)
  | none => .next s

/-- A setup reference mark (R24). -/
def execSetupReferenceMark (s : State) : Host.Outcome State Fault Refusal :=
  match s.dueMark .setupReference with
  | some m => .next (setupMarkEvent m s)
  | none => .next s

/-- A rising edge of REFIN (R17, R18). -/
def execRefinEdge (s : State) : Host.Outcome State Fault Refusal := .next (refEdge s)

/-- The window whose mark has been issued closes with no edge; the clock runs on to its end (R21). -/
def execRefWindowClose (s : State) : Host.Outcome State Fault Refusal :=
  match s.cg.window, s.cg.period with
  | some w, some p => if w.event.isSome then .next (closeRefWindow w p s) else .next s
  | _, _ => .next s

/-- The scheduled pulse of an eye that is due first fires, provided the eye is RUNNING or AGREED; the clock runs on to its
own trigger time (R85, R86). DESIGN CHOICE, unsafe: where a later mark's pulse has the earlier trigger time, each fires at its
own time, as R85 and R86 say, and the entries follow the firing; R135 says that the pulses of an eye fire in mark order
(notes/assumptions/30.md). -/
def execTriggerPulse (e : Eye) (s : State) : Host.Outcome State Fault Refusal :=
  match earliestPulse s.timebase (s.tp.pulses.get e) with
  | some p => if (s.eye e).state.inTake then .next (firePulse e p (waitUntil p.time s)) else .next s
  | none => .next s

/-- TRIG falls 100 ticks after it rose; the clock runs on to that tick (R46). -/
def execTrigPulseEnd (e : Eye) (s : State) : Host.Outcome State Fault Refusal :=
  match (s.eye e).trig with
  | some t => .next ((waitUntil (after t Config.pulseTicks) s).mapEye e fun p => { p with trig := none })
  | none => .next s

end Sys2Proof.Machine
end

