-- ==== Sys2Proof/Machine/PartCommands.lean ====
section
/-! DEFINITION. The commands of the pair port (spec/08_pair_queue_and_pair_port.md, R157, R158) and the resets
(spec/09_rig_control_port.md, 9.6). -/

namespace Sys2Proof.Machine

/-- A falling edge of P_SEL# (R157). -/
def execPairReadStart (s : State) (early : Nat := 0) : Host.Outcome State Fault Refusal := .next (pairStart early s)

/-- A rising edge of P_SEL# after `count` bits were clocked out (R158). -/
def execPairReadEnd (count : Nat) (s : State) : Host.Outcome State Fault Refusal := .next (pairEnd count s)

/-- The supply rises from, or falls below, its operating range (R172). -/
def execPowerOnReset (s : State) : Host.Outcome State Fault Refusal := .next (enforceReset .powerOn s)

/-- RST# has been low for `lowTicks` ticks: recognised at 1,000, no reset before (R173). -/
def execPinReset (lowTicks : Nat) (s : State) : Host.Outcome State Fault Refusal :=
  if Config.pinResetTicks ≤ lowTicks then .next (enforceReset .pin s) else .next s

/-- A reset in force is released (R175). -/
def execResetRelease (kind : ResetKind) (s : State) : Host.Outcome State Fault Refusal := .next (endReset kind s)

end Sys2Proof.Machine
end

