-- ==== Sys2Proof/Machine/Dispatch.lean ====
section
/-! DEFINITION. The dispatch of the commands: one arm per constructor of Instr. -/

namespace Sys2Proof.Machine

def exec (i : Instr) (s : State) : Host.Outcome State Fault Refusal :=
  match i with
  | .profile p pad => Sys2Proof.Machine.execProfile p pad s
  | .source code pad => Sys2Proof.Machine.execSource code pad s
  | .rate target marks pad => Sys2Proof.Machine.execRate target marks pad s
  | .shutter mode value pad => Sys2Proof.Machine.execShutter mode value pad s
  | .demand axes focus iris zoom pad => Sys2Proof.Machine.execDemand axes focus iris zoom pad s
  | .roll pad => Sys2Proof.Machine.execRoll pad s
  | .cut pad => Sys2Proof.Machine.execCut pad s
  | .portEnable eye pad => Sys2Proof.Machine.execPortEnable eye pad s
  | .portDisable eye pad => Sys2Proof.Machine.execPortDisable eye pad s
  | .stageReset pad => Sys2Proof.Machine.execStageReset pad s
  | .stageWrite offset data pad => Sys2Proof.Machine.execStageWrite offset data pad s
  | .commit slot pad => Sys2Proof.Machine.execCommit slot pad s
  | .discard slot pad => Sys2Proof.Machine.execDiscard slot pad s
  | .save slot pad => Sys2Proof.Machine.execSave slot pad s
  | .readSlot slot offset length pad => Sys2Proof.Machine.execReadSlot slot offset length pad s
  | .query pad => Sys2Proof.Machine.execQuery pad s
  | .clearNotices mask pad => Sys2Proof.Machine.execClearNotices mask pad s
  | .reset pad => Sys2Proof.Machine.execReset pad s
  | .rcpTransactionStart early => Sys2Proof.Machine.execRcpTransactionStart s early
  | .collection count => Sys2Proof.Machine.execCollection count s
  | .rcpRecordRefused bits => Sys2Proof.Machine.execRcpRecordRefused bits s
  | .eyeTransactionStart eye early => Sys2Proof.Machine.execEyeTransactionStart eye s early
  | .capsReceived eye caps pad => Sys2Proof.Machine.execCapsReceived eye caps pad s
  | .acceptReceived eye index pad => Sys2Proof.Machine.execAcceptReceived eye index pad s
  | .refuseReceived eye index pad => Sys2Proof.Machine.execRefuseReceived eye index pad s
  | .frameReceived eye frame pad => Sys2Proof.Machine.execFrameReceived eye frame pad s
  | .idle eye pad => Sys2Proof.Machine.execIdle eye pad s
  | .reportDiscarded eye bits => Sys2Proof.Machine.execReportDiscarded eye bits s
  | .capsTaken eye => Sys2Proof.Machine.execCapsTaken eye s
  | .acceptTaken eye => Sys2Proof.Machine.execAcceptTaken eye s
  | .refuseTaken eye => Sys2Proof.Machine.execRefuseTaken eye s
  | .frameTaken eye => Sys2Proof.Machine.execFrameTaken eye s
  | .presRise eye => Sys2Proof.Machine.execPresRise eye s
  | .presFall eye => Sys2Proof.Machine.execPresFall eye s
  | .settleComplete eye => Sys2Proof.Machine.execSettleComplete eye s
  | .detach eye => Sys2Proof.Machine.execDetach eye s
  | .rollingMark => Sys2Proof.Machine.execRollingMark s
  | .planComplete => Sys2Proof.Machine.execPlanComplete s
  | .drainMark => Sys2Proof.Machine.execDrainMark s
  | .leadMark => Sys2Proof.Machine.execLeadMark s
  | .setupReferenceMark => Sys2Proof.Machine.execSetupReferenceMark s
  | .refinEdge => Sys2Proof.Machine.execRefinEdge s
  | .refWindowClose => Sys2Proof.Machine.execRefWindowClose s
  | .triggerPulse eye => Sys2Proof.Machine.execTriggerPulse eye s
  | .trigPulseEnd eye => Sys2Proof.Machine.execTrigPulseEnd eye s
  | .saveComplete => Sys2Proof.Machine.execSaveComplete s
  | .loadComplete => Sys2Proof.Machine.execLoadComplete s
  | .pairReadStart early => Sys2Proof.Machine.execPairReadStart s early
  | .pairReadEnd count => Sys2Proof.Machine.execPairReadEnd count s
  | .powerOnReset => Sys2Proof.Machine.execPowerOnReset s
  | .pinReset lowTicks => Sys2Proof.Machine.execPinReset lowTicks s
  | .resetRelease kind => Sys2Proof.Machine.execResetRelease kind s

end Sys2Proof.Machine
end

