-- ==== Sys2Proof/Safety.lean ====
section
/-! DEFINITION. What counts as a sound state of the part, block by block, and when a command's transaction is judged: the
terms the claims use. Each condition names the rule that it states. -/

namespace Sys2Proof.Machine

/-! ## Transactions that are judged -/

/-- The end of a rig control transaction is judged: no reset is in force, and a C_SEL# that is low has a transaction
(R163, R166). With C_SEL# high the command stands for the whole transaction (notes/assumptions/4.md). -/
def State.rcpServes (s : State) : Prop := s.isHeld = false ∧ (s.rcp.selLow = true → s.rcp.txn.isSome = true)

/-- The response a transaction sends: the one latched at its start (R162). -/
def State.latchedResponse (s : State) : Response :=
  if s.rcp.selLow then (s.rcp.txn.map RcpTxn.response).getD s.rcp.response else s.rcp.response

/-- The rig control port after a judged transaction of `n` bits that stored a response (R162, R164). -/
def State.rcpAnswered (s : State) (n : Nat) (kind : Byte) (code : ResponseCode) (body : List Byte) : RigPort :=
  { s.rcp with
    response := ⟨code, kind, body⟩
    selLow := false
    txn := none
    sent := clockOut (responseRecord s.latchedResponse) n }

/-- The bits of a request's transaction with `pad` bits after its record. -/
def requestBits (r : Request) (pad : Nat) : Nat := 8 * ((requestBody r).length + 4) + pad

/-- The rig control port after the transaction of a request that was answered with a code and no body (R164, R165). -/
def State.rcpAnswer (s : State) (r : Request) (pad : Nat) (code : ResponseCode) : RigPort :=
  s.rcpAnswered (requestBits r pad) (requestKind r) code []

/-- The end of an eye port's transaction is served: no reset is in force, the eye is attached, its port enabled, and a
SEL# that is low has a served transaction (R34). -/
def State.eyeServes (s : State) (e : Eye) : Prop :=
  s.isHeld = false ∧ (s.eye e).state.attached = true ∧ (s.eye e).enabled = true ∧
    ((s.eye e).selLow = true → ∃ t, (s.eye e).txn = some t ∧ t.served = true)

/-- The directive image a served transaction sends: the one latched at its start (R37). -/
def EyePort.latchedImage (p : EyePort) : Option EyeImage :=
  if p.selLow then p.image else p.buffer.map fun d => ⟨d, p.fresh⟩

/-- A write has reached the directive buffer since the latch of the transaction (R37). -/
def EyePort.writtenSince (p : EyePort) : Bool :=
  p.selLow && (p.txn.map EyeTxn.writeSinceLatch).getD false

/-- An eye's port after a served transaction of `n` bits: the directive was sent, the fresh flag follows R38, and the
receive slot and the lost-report count are as given. -/
def EyePort.ended (p : EyePort) (n : Nat) (slot : Option Report) (lost : Nat) : EyePort :=
  { p with
    selLow := false
    txn := none
    image := none
    fresh := p.fresh && !(decide ((imageBytes p.latchedImage).length ≤ n / 8) && !p.writtenSince)
    sent := clockOut (imageBytes p.latchedImage) n
    slot := slot
    lost := lost }

/-- The lost-report count after one more lost report: 255 where it was 255, and where the Pairing Engine took a count of 255
at the same instant, before it (R44). -/
def EyePort.lostNext (p : EyePort) : Nat := if p.takenFull = true ∨ 255 ≤ p.lost then 255 else p.lost + 1

/-- An eye's port after the Pairing Engine took its lost-report count (R44): 0, with whether it was 255 kept to the end of the
instant (notes/assumptions/28.md). -/
def EyePort.lostTaken (p : EyePort) : EyePort := { p with lost := 0, takenFull := p.takenFull || decide (255 ≤ p.lost) }

/-- The part after a served transaction of `n` bits whose report was discarded and counted (R40, R41, R43, R44). -/
def State.reportLost (s : State) (e : Eye) (n : Nat) : State :=
  { s with
    eyes := s.eyes.set e ((s.eye e).ended n (s.eye e).slot (s.eye e).lostNext) }

/-- The bits of a report's transaction with `pad` bits after its record. -/
def reportBits (r : Report) (pad : Nat) : Nat := 8 * ((reportBody r).length + 4) + pad

/-- The command of the table that carries a report. -/
def reportCommand (e : Eye) (r : Report) (pad : Nat) : Instr :=
  match r with
  | .caps caps => .capsReceived e caps pad
  | .accept index => .acceptReceived e index pad
  | .refuse index => .refuseReceived e index pad
  | .frame frame => .frameReceived e frame pad
  | .idle => .idle e pad

/-- A whole record stands at the front of the bytes clocked in, with padding after it (R40, R163). -/
def wholeRecord (bytes : List Byte) (kind : Byte) (body : List Byte) : Prop :=
  body.length ≤ 250 ∧ ∃ padding, bytes = frameRecord kind body ++ padding

/-- The command of the table that carries a request; none for a PORT whose action is neither disable nor enable. -/
def requestCommand (r : Request) (pad : Nat) : Option Instr :=
  match r with
  | .profile p => some (.profile p pad)
  | .source code => some (.source code pad)
  | .rate target marks => some (.rate target marks pad)
  | .shutter mode value => some (.shutter mode value pad)
  | .demand axes focus iris zoom => some (.demand axes focus iris zoom pad)
  | .roll => some (.roll pad)
  | .cut => some (.cut pad)
  | .port eye action =>
    if action = 0 then some (.portDisable eye pad) else if action = 1 then some (.portEnable eye pad) else none
  | .stageReset => some (.stageReset pad)
  | .stageWrite offset data => some (.stageWrite offset data pad)
  | .commit slot => some (.commit slot pad)
  | .discard slot => some (.discard slot pad)
  | .save slot => some (.save slot pad)
  | .readSlot slot offset length => some (.readSlot slot offset length pad)
  | .query => some (.query pad)
  | .clearNotices mask => some (.clearNotices mask pad)
  | .reset => some (.reset pad)

/-- The body lengths a request kind allows (10.4). -/
def requestLengthAllowed (kind : Byte) (n : Nat) : Prop :=
  match kind.toNat with
  | 0x61 => n = 21
  | 0x62 => n = 1
  | 0x63 => n = 6
  | 0x64 => n = 5
  | 0x65 => n = 7
  | 0x68 => n = 2
  | 0x6A => 3 ≤ n ∧ n ≤ 66
  | 0x6B => n = 1
  | 0x6C => n = 1
  | 0x6D => n = 1
  | 0x6E => n = 4
  | 0x70 => n = 2
  | _ => n = 0

/-- The conditions R3 lists for ROLL. -/
def State.rollAllowed (s : State) : Prop :=
  s.cg.rig = .setup ∧ (∀ e, (s.eye e).state = .agreed) ∧
    (s.cg.source = .ref → s.cg.ref = .locked ∧ ∃ p a, s.cg.period = some p ∧ s.ae.agreement = some a ∧
      a.floor ≤ p ∧ (2 * 10 ^ 11 + p) / (2 * p) ≤ a.ceiling)

/-! ## The choice -/

/-- The readout time used of an eye with an orientation (R52). -/
def SensorMode.usedReadout (o : Orientation) (m : SensorMode) : Nat :=
  match o, m.reversed with
  | .reflected, some t => t
  | _, _ => m.normal

/-- The eye scans the scene upward: a REFLECTED eye whose offer carries no T_r (R52). -/
def SensorMode.up (o : Orientation) (m : SensorMode) : Prop := o = .reflected ∧ m.reversed = none

/-- The readout floor of a pair (R53). -/
def pairFloor (f : TakeFrame) (l r : Offer) : Nat :=
  max (l.mode.usedReadout f.orientation.left) (r.mode.usedReadout f.orientation.right) + max l.mode.blank r.mode.blank

/-- The five tests of R53. -/
def pairFeasible (f : TakeFrame) (exclusion : List (Nat × Nat)) (l r : Offer) : Prop :=
  (l.mode.geometry = r.mode.geometry ∧ (f.geometry = 255 ∨ l.mode.geometry = f.geometry)) ∧
    (l.index, r.index) ∉ exclusion ∧ (f.rateNeeded ≤ l.mode.maxRate ∧ f.rateNeeded ≤ r.mode.maxRate) ∧
    pairFloor f l r ≤ (2 * 10 ^ 11 + f.rateNeeded) / (2 * f.rateNeeded) ∧
    ((l.mode.up f.orientation.left ↔ r.mode.up f.orientation.right) ∨ f.opposedAccepted = true)

/-- Every field of a PROFILE lies in its range (R48, R180, 3.2). -/
def profileInRange (p : RawProfile) : Prop :=
  p.orientationL.toNat ≤ 1 ∧ p.orientationR.toNat ≤ 1 ∧ p.opposed.toNat ≤ 1 ∧
    (1000 ≤ p.rateNeeded.toNat ∧ p.rateNeeded.toNat ≤ 240000) ∧ p.anchor.toNat ≤ 1024 ∧
    (2 ≤ p.depth.toNat ∧ p.depth.toNat ≤ 8) ∧ p.skewLimit.toNat ≤ 10000000

/-- A CAPS is valid (R49, R178): 1 to 6 offers with distinct indices, every field in its range, every coded field a code. -/
def capsValid (c : RawCaps) : Prop :=
  (1 ≤ c.offers.length ∧ c.offers.length ≤ 6) ∧ (c.offers.map RawOffer.index).Nodup ∧ c.identityPresent.toNat ≤ 1 ∧
    c.axes.toNat ≤ 7 ∧
    ∀ o ∈ c.offers, o.index.toNat ≤ 5 ∧ o.geometry.toNat ≤ 254 ∧ 1000 ≤ o.normal.toNat ∧ o.normal.toNat ≤ 10000000 ∧
      o.reversedPresent.toNat ≤ 1 ∧
      (o.reversedPresent = 1 → 1000 ≤ o.reversed.toNat ∧ o.reversed.toNat ≤ 10000000) ∧
      o.blank.toNat ≤ 1000000 ∧ 1000 ≤ o.maxRate.toNat ∧ o.maxRate.toNat ≤ 240000

/-- An eye stands in a state with a directive freshly written. -/
def EyePort.placed (p : EyePort) (st : EyeState) (d : Directive) : Prop :=
  p.state = st ∧ p.buffer = some d ∧ p.fresh = true

/-- An eye waits in LISTENING or HELD for a reason, with its WAIT freshly written (R47). -/
def State.waits (t : State) (e : Eye) (st : EyeState) (reason : WaitReason) : Prop :=
  (t.eye e).placed st (.wait reason) ∧ t.ae.reason.get e = reason

/-- The outcome of a choice has placed both eyes (R56): None, Equal or Changed. `cause` is the eye whose CAPS caused it. -/
def choicePlaced (cause : Option Eye) (outcome : Option Agreement) (s t : State) : Prop :=
  t.ae.agreement = outcome ∧
    match outcome with
    | none => hasNotice t.rcp.notices .noCommonMode = true ∧ ∀ e, t.waits e .held .noCommonMode
    | some a => ∀ e,
      ((∃ b, s.ae.agreement = some b ∧ b.index = a.index ∧ b.mode = a.mode) ∧ (s.eye e).state = .agreed →
        (t.eye e).state = .agreed ∧
          (cause = some e → (t.eye e).placed .agreed .halt) ∧
          (cause ≠ some e → (t.eye e).buffer = (s.eye e).buffer ∧ (t.eye e).fresh = (s.eye e).fresh)) ∧
      (¬ ((∃ b, s.ae.agreement = some b ∧ b.index = a.index ∧ b.mode = a.mode) ∧ (s.eye e).state = .agreed) →
        (t.eye e).placed .proposed (.agree (a.index.get e) (a.reversed.get e)))

/-- An offer matches the offer an agreement record stores for an eye (R62). -/
def Offer.matchesStored (o : Offer) (a : Agreement) (e : Eye) : Prop :=
  o.mode.geometry = (a.mode.get e).geometry ∧ o.mode.normal = (a.mode.get e).normal ∧
    o.mode.reversed = (a.mode.get e).reversed ∧ o.mode.blank = (a.mode.get e).blank ∧ a.ceiling ≤ o.mode.maxRate

/-! ## Marks and plans -/

/-- A slot with what it holds pending applied: a COMMIT's copy or, for a DISCARD, nothing (R103, R104). -/
def LensSlot.withHeld (l : LensSlot) : LensSlot :=
  { l with
    contents := match l.pending with
      | some (.commit copy) => some copy
      | some .discard => none
      | none => l.contents
    pending := none }

/-- Each eye is bound to the VALID slot whose lens identity equals the identity its held CAPS states, and to no slot where
it holds no CAPS, its CAPS states none, or no VALID slot carries it (R105). -/
def State.boundByIdentity (s : State) : Prop :=
  ∀ e k, s.lts.binding.get e = some k ↔
    k < 8 ∧ ∃ caps table identity, (s.eye e).caps = some caps ∧ caps.identity = some identity ∧
      (s.lts.slot k).contents = some table ∧ table.table.identity = identity

/-- Every held COMMIT and DISCARD of `s` is applied in `t`, at one instant (R102 to R105): the slots, then both bindings;
an eye bound before or after to a slot that changed, or bound anew, has no previous targets left. -/
def heldApplied (s t : State) : Prop :=
  (∀ k, t.lts.slot k = (s.lts.slot k).withHeld) ∧ t.boundByIdentity ∧
    ∀ e, ∀ touched : Prop,
      touched = (t.lts.binding.get e ≠ s.lts.binding.get e ∨
        ∃ k, (s.lts.binding.get e = some k ∨ t.lts.binding.get e = some k) ∧ (s.lts.slot k).pending ≠ none) →
      (touched → t.lme.previous.get e = .all none) ∧ (¬ touched → t.lme.previous.get e = s.lme.previous.get e)

/-- A plan has begun in `t`, at the present instant, on the Cadence Generator of `s` and an agreement: what its snapshot
takes (R68, R79, R117), each item from its owner as it stands after the held table changes were applied, the eyes it
includes in ROLLING (R69), both clear-since-start marks cleared (R120), and the Cadence Generator's step. With source FREE
that is the rate limited to 1,000 and the ceiling and the period of R11, R12 and R15; with source REF it is P, and the rate
and the ramp stay. -/
def beganPlan (a : Agreement) (s t : State) (p : PlanInProgress) : Prop :=
  t.tp.inProgress = some p ∧ p.departed = ⟨false, false⟩ ∧ t.lme.clearMark = ⟨false, false⟩ ∧
    (∀ e, p.included.get e = true ↔ (t.eye e).state = .running ∨ (t.eye e).state = .agreed) ∧
    p.snapshot.mark = t.cg.markCounter ∧ p.snapshot.scansUp = a.scansUp ∧ p.snapshot.anchor = t.ae.frame.anchor ∧
    p.snapshot.opposed = a.opposed ∧ p.snapshot.shutterMode = t.tp.shutterMode ∧
    p.snapshot.shutterValue = t.tp.shutterValue ∧ p.snapshot.demand = t.lme.demand ∧
    p.snapshot.lastReadout = t.tp.lastReadout ∧
    (∀ e,
      p.snapshot.readout.get e =
        (match a.reversed.get e, (a.mode.get e).reversed with
          | true, some reversed => reversed
          | _, _ => (a.mode.get e).normal) ∧
      p.snapshot.blank.get e = (a.mode.get e).blank ∧
      p.snapshot.lens.get e =
        { table := match t.lts.binding.get e with
            | some k => (t.lts.slot k).contents.map LensImage.table
            | none => none
          motorised := match (t.eye e).caps with | some caps => caps.axes | none => ⟨false, false, false⟩
          previous := t.lme.previous.get e }) ∧
    (s.cg.source = .free → ∀ rate, rate = min (max s.cg.stepRate 1000) a.ceiling →
      p.snapshot.period = max ((2 * 10 ^ 11 + rate) / (2 * rate)) a.floor ∧
      p.snapshot.rateClamped = decide (a.ceiling < s.cg.stepRate) ∧
      p.snapshot.expected = t.timebase + BitVec.ofNat 48 p.snapshot.period ∧
      t.cg.currentRate = rate ∧ t.cg.ramp = s.cg.steppedRamp ∧
      t.cg.nextMark = some (t.timebase + BitVec.ofNat 48 p.snapshot.period)) ∧
    (s.cg.source = .ref →
      (∀ period, s.cg.period = some period → p.snapshot.period = period ∧
        p.snapshot.expected = t.timebase + BitVec.ofNat 48 (period - period / 256)) ∧
      p.snapshot.rateClamped = false ∧ t.cg.currentRate = s.cg.currentRate ∧ t.cg.ramp = s.cg.ramp) ∧
    t.cg.planPeriod = p.snapshot.period

/-- What the event of the mark scheduled for `m` leaves of the reference (R18, R19, R22). With source REF the owed REF_STEP
is cleared. While the mark's own window waits for its edge, the window takes the event, with the P then held and the mark's
number if it has one, and the next mark is not yet scheduled. Where an edge has come before the event, the window is already
that of the next mark, which stays scheduled at its corrected time. With source FREE the reference is untouched. -/
def markPassed (m : Time) (number : Option MarkNumber) (s t : State) : Prop :=
  (s.cg.source = .free → t.cg.lock = s.cg.lock ∧ t.cg.window = s.cg.window) ∧
    (s.cg.source = .ref →
      t.cg.lock = { s.cg.lock with stepOwed := false } ∧
      ∀ w, s.cg.window = some w →
        (w.mark = m → t.cg.nextMark = none ∧ ∀ period, s.cg.period = some period →
          t.cg.window = some { w with event := some ⟨period, number⟩ }) ∧
        (w.mark ≠ m → t.cg.nextMark = some w.mark ∧ t.cg.window = some w))

/-- The plan lays a pulse for an eye (R84). -/
def Plan.lays (p : Plan) (e : Eye) : Bool := p.included.get e && !p.departed.get e && !p.skipped

/-- The pulse an eye is laid falls at the mark itself and fires within its event (R84). -/
def Plan.firesAtMark (p : Plan) (e : Eye) : Bool := p.lays e && decide (p.slip + p.offset.get e = 0)

/-- An eye becomes RUNNING at the mark of a plan (R4). -/
def State.joins (s : State) (p : Plan) (e : Eye) : Bool :=
  p.included.get e && !p.departed.get e && decide ((s.eye e).state = .agreed)

/-- The trigger number of an eye's next pulse, once the eyes that join a take count from 0 (R87). -/
def State.nextTrigger (s : State) (p : Plan) (e : Eye) : BitVec 16 :=
  if s.joins p e then 0 else s.tp.triggerNumber.get e

/-- The part of an eye in the slot a rolling mark opens (the table of R131), once the pulses that fall at the mark have fired
(R134). -/
def State.openedPart (s : State) (p : Plan) (e : Eye) : EyePart where
  state :=
    if p.included.get e = false ∨ p.skipped = true then .absent
    else if p.departed.get e = true then .missing
    else if p.slip + p.offset.get e = 0 then .awaited
    else .triggerPending
  triggered := p.firesAtMark e
  trigger := if p.firesAtMark e then s.nextTrigger p e else 0
  offset := p.offset.get e
  flags := p.flags.get e
  lost := p.included.get e && p.departed.get e
  report := none
  stale := false

/-- What the rolling mark of a plan opens and lays, after the ageing of its event (R84, R85, R87, R131, R132): the slot at the
new end of the window, gone again at once where it is complete and alone; the pulses at mark + slip + offset; and, for a
pulse at the mark itself, its trigger entry and the rise of TRIG. -/
def opensSlot (p : Plan) (s t : State) : Prop :=
  (∃ slot : PairSlot,
    slot =
      { mark := s.cg.markCounter, time := t.timebase, take := s.cg.take, age := 0, period := p.period
        exposure := p.exposure, slip := p.slip, skipped := p.skipped, p0 := p.p0, p1024 := p.p1024, predicted := p.skew
        rateClamped := p.rateClamped, opposed := p.opposed, holdover := decide (s.cg.ref = .holdover)
        refStep := s.cg.lock.stepOwed, skew := false, anchorSkew := 0, worstSkew := 0, lens := .all ⟨false, 0, false⟩
        parts := ⟨s.openedPart p .left, s.openedPart p .right⟩ } ∧
    t.pe.window =
      if slot.complete = true ∧ (ageWindow s).pe.window = [] then [] else (ageWindow s).pe.window ++ [slot]) ∧
  ∀ e,
    t.tp.triggerNumber.get e = (if p.firesAtMark e then s.nextTrigger p e + 1 else s.nextTrigger p e) ∧
    t.tp.pulses.get e =
      (ageWindow s).tp.pulses.get e ++
        (if p.lays e && !p.firesAtMark e then
          [⟨s.cg.markCounter, t.timebase + BitVec.ofNat 48 (p.slip + p.offset.get e)⟩]
        else []) ∧
    t.pe.triggers.get e =
      (ageWindow s).pe.triggers.get e ++ (if p.firesAtMark e then [⟨s.nextTrigger p e, s.cg.markCounter⟩] else []) ∧
    (t.eye e).trig = if p.firesAtMark e then some t.timebase else (s.eye e).trig

/-! ## Departures -/

/-- A part of a departing eye: an open one, TRIGGER_PENDING or AWAITED, is MISSING with LOST (R143). -/
def EyePart.departed (p : EyePart) : EyePart :=
  if p.state = .triggerPending ∨ p.state = .awaited then { p with state := .missing, lost := true } else p

/-- The Pairing Engine's side of an eye's departure from the take (R88, R143, R147): each open part of the eye becomes
MISSING with LOST; complete slots leave the window from the front; the eye's trigger entries and pulses go, and of the other
eye's those that name a slot that left; and a record that left took both lost-report counts (R150). -/
def partsLost (e : Eye) (s t : State) : Prop :=
  ∃ (retired : Nat) (window : List PairSlot),
    List.Forall₂ (fun (old new : PairSlot) => new = { old with parts := old.parts.set e (old.parts.get e).departed })
      s.pe.window window ∧
    t.pe.window = window.drop retired ∧ retired ≤ window.length ∧
    (∀ slot ∈ window.take retired, slot.complete = true) ∧ (∀ slot ∈ t.pe.window.head?, slot.complete = false) ∧
    t.pe.triggers.get e = [] ∧ t.tp.pulses.get e = [] ∧
    (∀ p, p ∈ t.tp.pulses.get e.other ↔
      p ∈ s.tp.pulses.get e.other ∧ ∀ slot ∈ window.take retired, slot.mark ≠ p.mark) ∧
    (∀ x, x ∈ t.pe.triggers.get e.other ↔
      x ∈ s.pe.triggers.get e.other ∧ ∀ slot ∈ window.take retired, slot.mark ≠ x.mark) ∧
    (∀ e',
      (t.eye e').lost = (if 0 < retired then 0 else (s.eye e').lost) ∧
      (t.eye e').takenFull = if 0 < retired then (s.eye e').lostTaken.takenFull else (s.eye e').takenFull) ∧
    (retired = 0 → t.pq = s.pq)

/-- Each plan that includes a departing eye records its departure, and keeps everything else (R72). -/
def plansDeparted (e : Eye) (s t : State) : Prop :=
  t.tp.inProgress = s.tp.inProgress.map (fun p =>
      { p with departed := if p.included.get e then p.departed.set e true else p.departed }) ∧
    t.tp.prepared = s.tp.prepared.map fun p =>
      { p with departed := if p.included.get e then p.departed.set e true else p.departed }

/-- The directive an eye's buffer holds once the rig has entered DRAINING: HALT, or the directive owed to an eye that is not
AGREED (R6, R64). -/
def State.drainDirective (s : State) (e : Eye) : Directive :=
  match (s.eye e).state, s.ae.agreement with
  | .listening, _ => .wait (s.ae.reason.get e)
  | .held, _ => .wait (s.ae.reason.get e)
  | .proposed, some a => .agree (a.index.get e) (a.reversed.get e)
  | _, _ => .halt

/-! ## Rounding -/

/-- `q` is the exact quotient `n / d` rounded half away from zero (spec/00_scope.md, Conventions). -/
def roundsTo (n d q : Int) : Prop :=
  2 * (n - q * d).natAbs ≤ d.natAbs ∧ (2 * (n - q * d).natAbs = d.natAbs → n.natAbs ≤ (q * d).natAbs)

/-! ## The part in reset -/

/-- While a reset is in force every block is at its reset values (R175). -/
def State.heldSound (s : State) : Prop := s.isHeld = true → holdInReset s = s

/-! ## The eye ports -/

/-- The presence timer counts what the eye state asks for (R26 to R28). -/
def EyePort.timerSound (p : EyePort) : Prop :=
  match p.state with
  | .detached => p.timer = .idle
  | .settling => p.pres = true ∧ ∃ c, c ≤ 10000000 ∧ p.timer = .high c
  | _ => ∃ c, c ≤ 100000 ∧ p.timer = .low c

/-- One eye port: an attached eye has a directive in its buffer (R36); an eye that is not attached holds no CAPS, no
report and no image, and serves no transaction (R29, R34); only an enabled port's eye leaves DETACHED (R32); the lost
count is at most 255 (R44). In a transaction SEL# is low, the bytes counted are the whole bytes that went out, and SDO has
carried the beginning of the image, or 0x00; outside a served one there is no image (R33 to R35, R39). -/
def EyePort.sound (p : EyePort) : Prop :=
  p.timerSound ∧ p.lost ≤ 255 ∧ (p.state ≠ .detached → p.enabled = true) ∧
    (p.state.attached = true → p.buffer.isSome = true) ∧
    (p.state.attached = false → p.caps = none ∧ p.slot = none ∧ p.image = none ∧
      ∀ t, p.txn = some t → t.served = false) ∧
    (∀ t, p.txn = some t → p.selLow = true ∧ t.bytesIn = p.sent.length / 8 ∧ t.bytesOut = t.bytesIn ∧
      p.sent = clockOut (imageBytes p.image) p.sent.length) ∧
    (p.image.isSome = true → ∃ t, p.txn = some t ∧ t.served = true)

/-- The rig control port's transaction: the response latched is the response held, and C_SDO has carried its beginning
(R162). -/
def RigPort.sound (r : RigPort) : Prop :=
  ∀ t, r.txn = some t → r.selLow = true ∧ t.response = r.response ∧ t.bytesIn = r.sent.length / 8 ∧
    t.bytesOut = t.bytesIn ∧ r.sent = clockOut (responseRecord r.response) r.sent.length

/-- Both eye ports, the rig control port's transaction, and the part's hold. -/
def State.eyesSound (s : State) : Prop := s.heldSound ∧ s.rcp.sound ∧ ∀ e, (s.eye e).sound

/-! ## Pulses -/

/-- Only an eye in AGREED or RUNNING has TRIG high or a pulse scheduled (R45); only a ROLLING rig has a plan (R68,
R73), and a plan serves no eye outside the take (R69, R72). -/
def State.pulsesSound (s : State) : Prop :=
  (s.cg.rig ≠ .rolling → s.tp.inProgress = none ∧ s.tp.prepared = none) ∧
    (∀ p, s.tp.inProgress = some p → ∀ e, p.included.get e = true → p.departed.get e = false →
      (s.eye e).state.inTake = true) ∧
    (∀ p, s.tp.prepared = some p → ∀ e, p.included.get e = true → p.departed.get e = false →
      (s.eye e).state.inTake = true) ∧
    ∀ e, (s.eye e).state.inTake = false → (s.eye e).trig = none ∧ s.tp.pulses.get e = []

/-! ## The pair window and the trigger lists -/

/-- The pair window: ages fall from the oldest slot to the newest and stay below W, so at most W slots are open; no slot
is open in SETUP, and every open slot of a DRAINING rig has the age the drain marks gave it (R132, R142, R151). -/
def State.windowSound (s : State) : Prop :=
  2 ≤ s.ae.frame.depth ∧ s.ae.frame.depth ≤ 8 ∧
    (s.pe.window.map PairSlot.age).Pairwise (fun a b => b < a) ∧
    (∀ p ∈ s.pe.window, p.age < s.ae.frame.depth) ∧
    (s.cg.rig = .setup → s.pe.window = []) ∧
    (s.cg.rig = .draining → s.cg.drainCount < s.ae.frame.depth ∧ ∀ p ∈ s.pe.window, s.cg.drainCount ≤ p.age)

/-- The mark numbers of the open slots are consecutive and end one below the mark counter (R132). -/
def State.marksConsecutive (s : State) : Prop :=
  s.pe.window.map PairSlot.mark =
    (List.range s.pe.window.length).map fun i => s.cg.markCounter - BitVec.ofNat 48 (s.pe.window.length - i)

/-- The scheduled pulses and trigger entries of an eye name distinct open slots, whose part is TRIGGER_PENDING or
AWAITED (R134, R135). -/
def State.listsNameOpenSlots (s : State) (e : Eye) : Prop :=
  ((s.tp.pulses.get e).map Pulse.mark).Nodup ∧ ((s.pe.triggers.get e).map TriggerEntry.mark).Nodup ∧
    (∀ p ∈ s.tp.pulses.get e, ∃ slot ∈ s.pe.window,
      slot.mark = p.mark ∧ (slot.parts.get e).state = .triggerPending) ∧
    ∀ t ∈ s.pe.triggers.get e, ∃ slot ∈ s.pe.window, slot.mark = t.mark ∧ (slot.parts.get e).state = .awaited

/-- The window with its lists. -/
def State.listsSound (s : State) : Prop :=
  s.windowSound ∧ s.marksConsecutive ∧ ∀ e, s.listsNameOpenSlots e

/-! ## The pair queue -/

/-- The pair queue holds at most 64 records, each with the check of its bytes (R153), and a record latched by the pair
port is its head, of which SDO has carried the beginning (R157). -/
def State.queueSound (s : State) : Prop :=
  s.pq.queue.length ≤ 64 ∧ (∀ r ∈ s.pq.queue, r.check = recordCheck r.record.bytes) ∧
    (∀ r n, s.pq.read = some ⟨some r, n⟩ → s.pq.queue.head? = some r) ∧
    ∀ r, s.pq.read = some r → s.pq.selLow = true ∧ r.bytesOut = s.pq.sent.length / 8 ∧
      s.pq.sent = clockOut (latchedBytes r.latched) s.pq.sent.length

/-! ## The lens table store -/

/-- The axis block of an axis in an image (10.6). -/
def AxisTable.block (t : AxisTable) : List Byte :=
  be 2 t.slew ++ [BitVec.ofNat 8 t.points.length] ++ t.points.flatMap fun p => be 2 p.1 ++ be 2 p.2

/-- The image of a lens table (10.6). -/
def LensTable.image (t : LensTable) : List Byte :=
  withCheck
    (be 4 t.identity.toNat ++ [axisByte (t.axes.map Option.isSome)] ++ (t.axes.focus.map AxisTable.block).getD [] ++
      (t.axes.iris.map AxisTable.block).getD [] ++ (t.axes.zoom.map AxisTable.block).getD [])

/-- A table the store accepts: one to three axes, each within the limits of R94, with demands and counts of 16 bits
(10.6). -/
def LensTable.sound (t : LensTable) : Prop :=
  (∃ a, (t.axes.get a).isSome = true) ∧
    ∀ a x, t.axes.get a = some x → x.wf = true ∧ ∀ p ∈ x.points, p.1 ≤ 65535 ∧ p.2 ≤ 65535

/-- Contents the store holds: an accepted table with its own image (R94). -/
def LensImage.sound (c : LensImage) : Prop := c.table.sound ∧ c.image = c.table.image

/-- A slot's contents and pending copy are contents the store accepts. -/
def LensSlot.sound (l : LensSlot) : Prop :=
  (∀ c, l.contents = some c → c.sound) ∧ ∀ c, l.pending = some (.commit c) → c.sound

/-- Two slots share no lens identity, in force or pending (R94, R99). -/
def LensSlot.apart (l m : LensSlot) : Prop :=
  ∀ x, l.identity = some x → m.identity ≠ some x ∧ m.pendingIdentity ≠ some x

/-- The store: eight slots, eight places, 400 staging bytes; accepted tables with distinct identities; a save record
exactly while SAVING (R107); pending operations only in ROLLING (R102); and each eye bound to the VALID slot of its
CAPS's lens identity (R105). -/
def State.storeSound (s : State) : Prop :=
  s.lts.slots.length = 8 ∧ s.lts.nv.length = 8 ∧ s.lts.staging.length = 400 ∧
    (∀ l ∈ s.lts.slots, l.sound) ∧
    (∀ j k, j < 8 → k < 8 → j ≠ k → (s.lts.slot j).apart (s.lts.slot k) ∧
      ∀ x, (s.lts.slot j).pendingIdentity = some x → (s.lts.slot k).pendingIdentity ≠ some x) ∧
    (s.lts.store = .saving ↔ s.lts.saving.isSome = true) ∧
    (s.cg.rig ≠ .rolling → ∀ l ∈ s.lts.slots, l.pending = none) ∧
    s.boundByIdentity

/-! ## Settings -/

/-- An offer within the ranges of 3.3. -/
def Offer.inRange (o : Offer) : Prop :=
  o.index ≤ 5 ∧ o.mode.geometry ≤ 254 ∧ 1000 ≤ o.mode.normal ∧ o.mode.normal ≤ 10000000 ∧
    (∀ t, o.mode.reversed = some t → 1000 ≤ t ∧ t ≤ 10000000) ∧ o.mode.blank ≤ 1000000 ∧
    1000 ≤ o.mode.maxRate ∧ o.mode.maxRate ≤ 240000

/-- A rate within the range of R13. -/
def rateInRange (r : Nat) : Prop := 1000 ≤ r ∧ r ≤ 240000

/-- The shutter setting lies in the range of its mode (R75). -/
def TriggerPlanner.shutterInRange (t : TriggerPlanner) : Prop :=
  match t.shutterMode with
  | .angle => 1 ≤ t.shutterValue ∧ t.shutterValue ≤ 36000
  | .time => 100 ≤ t.shutterValue ∧ t.shutterValue ≤ 100000000

/-- The take frame lies in the ranges of 3.2. -/
def TakeFrame.inRange (f : TakeFrame) : Prop :=
  f.geometry ≤ 255 ∧ rateInRange f.rateNeeded ∧ f.anchor ≤ 1024 ∧ 2 ≤ f.depth ∧ f.depth ≤ 8 ∧ f.skewLimit ≤ 10000000 ∧
    ∀ a, f.tolerance.get a ≤ 65535

/-- The previous targets of an eye lie within 0 to 65,535 (6.1). -/
def targetsInRange (previous : PerAxis (Option Nat)) : Prop := ∀ a v, previous.get a = some v → v ≤ 65535

/-- Every number held by the Cadence Generator, the Agreement Engine, the Trigger Planner and the Lens Match Engine that its
state table bounds lies in the range the table gives (1.2, 3.2, 3.3, 4.1, 6.1), and so do the tables and the snapshot from
which the previous targets come (R94, R120). -/
def State.settingsInRange (s : State) : Prop :=
  s.tp.shutterInRange ∧ s.ae.frame.inRange ∧ rateInRange s.cg.targetRate ∧ rateInRange s.cg.currentRate ∧
    (∀ r, s.cg.ramp = some r → rateInRange r.r0 ∧ rateInRange r.r1 ∧ r.k < r.marks ∧ r.marks ≤ 65535) ∧
    (∀ p, s.cg.period = some p → 400000 ≤ p ∧ p ≤ 100000000) ∧
    s.cg.lock.empty ≤ 2 ∧ s.cg.seek.good ≤ 3 ∧ (s.cg.seek.good ≠ 0 → s.cg.seek.lastGood.isSome = true) ∧
    s.cg.drainCount ≤ 8 ∧
    (∀ a, s.ae.agreement = some a → rateInRange a.ceiling ∧ 1000 ≤ a.floor ∧ a.floor ≤ 100000000) ∧
    (∀ e c, (s.eye e).caps = some c →
      1 ≤ c.offers.length ∧ c.offers.length ≤ 6 ∧ (c.offers.map Offer.index).Nodup ∧ ∀ o ∈ c.offers, o.inRange) ∧
    (∀ a v, s.lme.demand.get a = some v → v ≤ 65535) ∧ (∀ e, targetsInRange (s.lme.previous.get e)) ∧
    (∀ p, s.tp.inProgress = some p → ∀ e, targetsInRange (p.snapshot.lens.get e).previous ∧
      ∀ x, (p.snapshot.lens.get e).table = some x → x.sound) ∧
    ∀ l ∈ s.lts.slots, l.sound

end Sys2Proof.Machine
end

