-- ==== Sys2Proof/Certificates/Slice0/Obligations.lean ====
section
/-! DEFINITION. The statements for the provers: what the data book's rules say of the part, command by command, and the
invariants every step keeps. Each docstring says which rules its statement formalises and names the model's choices it rests
on. -/

section
open Sys2Proof Sys2Proof.Machine

/-! ## The machine -/

/-- A step takes the command at the front of the queue and runs exactly its meaning on the state with the queue's rest.
The queue is the model's; no rule is cited. -/
def Obligations.StepRunsFrontCommand : Prop :=
  ∀ (c : Instr) (s : State), step { s with pending := c :: s.pending } = exec c s

/-- With no command waiting and no reset in force, `n + 1` steps are `n + 1` ticks: the timebase advances by one a tick
(R1), each presence timer counts as R27 and R28 say, and nothing else changes but the model's own `takenFull`, the mark of a
take at the instant that the tick ends. That an idle step is a tick is the model's choice (notes/assumptions/1.md), and so is
that mark (notes/assumptions/28.md). -/
def Obligations.IdleStepsCountTicks : Prop :=
  ∀ (n : Nat) (s : State), s.pending = [] → s.isHeld = false →
    Host.Core.run Sys2Proof.core (n + 1) s = .next
      { s with
        timebase := s.timebase + BitVec.ofNat 48 (n + 1)
        eyes := s.eyes.map fun p =>
          { p with
            timer := match p.timer with
              | .idle => .idle
              | .high c => if p.pres then .high (min (c + (n + 1)) 10000000) else .high c
              | .low c => if p.pres then .low c else .low (min (c + (n + 1)) 100000)
            takenFull := false } }

/-- Every command ends in a next state and leaves the queue to the step: no fault, no refusal, whatever the state. -/
def Obligations.EveryCommandCompletes : Prop :=
  ∀ (c : Instr) (s : State), ∃ t, exec c s = .next t ∧ t.pending = s.pending

/-! ## Records (Chapter 10) -/

/-- The rig control port reads a request exactly from the bytes of its record with anything after it (R163, 10.4). -/
def Obligations.RequestRecordsAreReadBack : Prop :=
  ∀ (bytes : List Byte) (r : Request),
    judgeTransaction bytes = .request r ↔
      r.framable = true ∧ ∃ padding, bytes = requestRecord r ++ padding

/-- An eye port reads a report exactly from the bytes of its record with anything after it (R40, R178, 10.2). -/
def Obligations.ReportRecordsAreReadBack : Prop :=
  ∀ (bytes : List Byte) (r : Report),
    readReport bytes = some r ↔ r.framable = true ∧ ∃ padding, bytes = reportRecord r ++ padding

/-- The Lens Table Store reads a table exactly from its image with anything after it (R98, R182, 10.6). -/
def Obligations.LensImagesAreReadBack : Prop :=
  ∀ (bytes : List Byte) (c : LensImage), readImage bytes = some c ↔ c.sound ∧ ∃ rest, bytes = c.image ++ rest

/-- Every directive is a whole record with the body 10.3 gives it (R179). A repeat differs from the first sending in bit 7 of
the control byte, and in the record check that covers it. That the body of AGREE is the index and the reverse value alone is
the model's choice: R52 says that the scene direction is sent in AGREE too, and 10.3 has no field for it
(notes/assumptions/31.md). -/
def Obligations.DirectiveRecords : Prop :=
  (∀ fresh reason, readFrame (directiveRecord (.wait reason) fresh) =
    .record 0x41 [if fresh then 0x80 else 0, reason.code]) ∧
  (∀ fresh index reversed, index ≤ 255 → readFrame (directiveRecord (.agree index reversed) fresh) =
    .record 0x42 [if fresh then 0xC0 else 0x40, BitVec.ofNat 8 index, if reversed then 1 else 0]) ∧
  (∀ fresh, readFrame (directiveRecord .halt fresh) = .record 0x43 [if fresh then 0x80 else 0]) ∧
  (∀ fresh (d : RunDirective), ∃ body,
    readFrame (directiveRecord (.run d) fresh) = .record 0x44 body ∧ body.length = 26 ∧
    byteAt body 0 = (if fresh then 0x80 else 0) + (if d.skipped then 1 else 0) ∧
    field body 1 2 = d.echo.toNat ∧ field body 3 4 = d.period % 2 ^ 32 ∧ field body 7 4 = d.exposure % 2 ^ 32 ∧
    field body 11 4 = d.offset % 2 ^ 32 ∧ field body 15 4 = d.slip % 2 ^ 32 ∧
    axisSet (byteAt body 19) = d.targets.map Option.isSome ∧ axisSetDefined (byteAt body 19) = true ∧
    field body 20 2 = d.targets.focus.getD 0 % 2 ^ 16 ∧ field body 22 2 = d.targets.iris.getD 0 % 2 ^ 16 ∧
    field body 24 2 = d.targets.zoom.getD 0 % 2 ^ 16)

/-- The 74 bytes of a record as the pair queue accepts it, field by field (10.5), and the EMPTY record (R159). -/
def Obligations.PairRecordBytes : Prop :=
  (∀ owed (r : PairRecord),
    let b := (acceptRecord owed r).bytes
    b.length = 74 ∧ byteAt b 0 = r.kind.code ∧ byteAt b 1 = 70 ∧
    byteAt b 2 = bits [r.skew, r.lensMismatch, r.rateClamped, r.holdover, r.refStep, owed, r.opposed] ∧
    field b 3 2 = r.take.toNat ∧ field b 5 6 = r.mark.toNat ∧ field b 11 6 = r.time.toNat ∧
    field b 17 4 = r.period % 2 ^ 32 ∧ field b 21 4 = r.exposure % 2 ^ 32 ∧ field b 25 4 = r.slip % 2 ^ 32 ∧
    field b 29 4 = r.predicted % 2 ^ 32 ∧ (field b 33 4 : Int) = r.anchorSkew % 2 ^ 32 ∧
    field b 37 4 = r.worstSkew % 2 ^ 32 ∧
    (∀ e : Eye, ∃ k, k = (match e with | .left => 41 | .right => 53) ∧
      byteAt b k = (r.parts.get e).outcome.code ∧ field b (k + 1) 2 = (r.parts.get e).trigger.toNat ∧
      field b (k + 3) 4 = (r.parts.get e).offset % 2 ^ 32 ∧ field b (k + 7) 2 = (r.parts.get e).delay % 2 ^ 16 ∧
      byteAt b (k + 9) = (r.parts.get e).status ∧ field b (k + 10) 1 = (r.parts.get e).lostReports % 256 ∧
      byteAt b (k + 11) = bits [(r.parts.get e).stale, (r.parts.get e).flags.uncalibrated, (r.parts.get e).lost,
        (r.parts.get e).flags.lag, (r.parts.get e).flags.demandClamped]) ∧
    field b 65 2 = r.lens.focus.error % 2 ^ 16 ∧ field b 67 2 = r.lens.iris.error % 2 ^ 16 ∧
    field b 69 2 = r.lens.zoom.error % 2 ^ 16 ∧
    byteAt b 71 = bits [r.lens.focus.compared, r.lens.iris.compared, r.lens.zoom.compared, false,
      r.lens.focus.mismatch, r.lens.iris.mismatch, r.lens.zoom.mismatch] ∧
    readFrame b = .record r.kind.code ((b.drop 2).take 70)) ∧
  readFrame emptyRecord = .record 0xA0 (List.replicate 70 0) ∧ emptyRecord.length = 74

/-! ## The rig control port and the resets (Chapter 9) -/

/-- The judgement of a rig control transaction, whole (R163): bytes of 0x00 alone are a collection, which keeps the
response; no whole record is FORMAT with the first byte, a kind that is no request UNKNOWN, a body length the kind does not
allow FORMAT, each stored with its echo and nothing else changed; a request with any padding is decided as its own command
is (that the bytes decide, and that a command with C_SEL# high stands for its whole transaction, is the model's choice:
notes/assumptions/6.md and 4.md). A falling C_SEL# latches the response, which goes out from its first bit (R162); a
transaction that begins in a reset is ignored and carries 0x00, and one that a reset abandons decides nothing and carries
0x00 from there on (R166; notes/assumptions/5.md, 26.md). C_SDO is low between transactions. -/
def Obligations.RigControlTransactions : Prop :=
  (∀ (s : State) (early : Nat), s.rcp.selLow = false →
    (s.isHeld = false → ∃ t, exec (.rcpTransactionStart early) s = .next t ∧
      t = { s with rcp :=
        { s.rcp with
          selLow := true, txn := some ⟨s.rcp.response, early / 8, early / 8⟩
          sent := clockOut (responseRecord s.rcp.response) early } } ∧
      t.rcp.sdoHigh = (toBits (responseRecord s.rcp.response)).getD early false) ∧
    (s.isHeld = true → exec (.rcpTransactionStart early) s = .next
      { s with rcp := { s.rcp with selLow := true, txn := none, sent := List.replicate early false } }) ∧
    s.rcp.sdoHigh = false) ∧
  (∀ (s : State) (count : Nat), s.rcpServes → exec (.collection count) s = .next
    { s with rcp :=
      { s.rcp with
        selLow := false, txn := none, sent := clockOut (responseRecord s.latchedResponse) count } }) ∧
  (∀ (s : State) (bits : List Bool), s.rcpServes → (∀ b ∈ wholeBytes bits, b = 0) →
    exec (.rcpRecordRefused bits) s = exec (.collection bits.length) s) ∧
  (∀ (s : State) (bits : List Bool) (bytes : List Byte), s.rcpServes → bytes = wholeBytes bits →
    (∃ b ∈ bytes, b ≠ 0) → (¬ ∃ kind body, wholeRecord bytes kind body) →
    exec (.rcpRecordRefused bits) s = .next
      { s with rcp := s.rcpAnswered bits.length (byteAt bytes 0) .format [] }) ∧
  (∀ (s : State) (bits : List Bool) (kind : Byte) (body : List Byte), s.rcpServes →
    (∃ b ∈ wholeBytes bits, b ≠ 0) → wholeRecord (wholeBytes bits) kind body →
    (¬ (0x61 ≤ kind.toNat ∧ kind.toNat ≤ 0x71) → exec (.rcpRecordRefused bits) s = .next
      { s with rcp := s.rcpAnswered bits.length kind .unknown [] }) ∧
    (0x61 ≤ kind.toNat ∧ kind.toNat ≤ 0x71 → ¬ requestLengthAllowed kind body.length →
      exec (.rcpRecordRefused bits) s = .next { s with rcp := s.rcpAnswered bits.length kind .format [] }) ∧
    (0x61 ≤ kind.toNat ∧ kind.toNat ≤ 0x71 → requestLengthAllowed kind body.length →
      ∃ r : Request, requestKind r = kind ∧ requestBody r = body ∧
        (∀ c, requestCommand r (bits.length - 8 * (body.length + 4)) = some c →
          exec (.rcpRecordRefused bits) s = exec c s) ∧
        (∀ pad, requestCommand r pad = none → exec (.rcpRecordRefused bits) s = .next
          { s with rcp := s.rcpAnswered bits.length kind .range [] }))) ∧
  ∀ (s : State) (c : Instr) (n : Nat),
    (∃ bits, c = .rcpRecordRefused bits ∧ n = bits.length) ∨ c = .collection n ∨
      (∃ r pad, requestCommand r pad = some c ∧ n = requestBits r pad) →
    (s.rcp.selLow = true → s.rcp.txn = none → exec c s = .next
      { s with rcp :=
        { s.rcp with
          selLow := false, sent := s.rcp.sent.take n ++ List.replicate (n - s.rcp.sent.length) false } }) ∧
    (s.rcp.selLow = false → s.isHeld = true → exec c s = .next
      { s with rcp := { s.rcp with selLow := false, txn := none, sent := List.replicate n false } })

/-- QUERY is answered DONE in every state with 124 bytes that show the state at the decision, each item at the offset of
R180's table, and it changes nothing but the port's own transaction (R170, R171, R180). -/
def Obligations.QueryAnswers : Prop :=
  ∀ (s : State) (pad : Nat), s.rcpServes → s.lts.slots.length = 8 →
    ∃ b : List Byte,
      exec (.query pad) s = .next { s with rcp := s.rcpAnswered (requestBits .query pad) 0x6F .done b } ∧ b.length = 124 ∧
      byteAt b 0 = s.cg.rig.code ∧ byteAt b 1 = s.cg.source.code ∧ byteAt b 2 = s.cg.ref.code ∧
      field b 3 2 = s.cg.take.toNat ∧ byteAt b 5 = (if s.cg.lastMark.isSome then 1 else 0) ∧
      field b 6 6 = (s.cg.lastMark.map fun m => m.1.toNat).getD 0 ∧
      field b 12 4 = (match s.cg.source, s.cg.period with
        | .free, _ => s.cg.currentRate
        | .ref, some p => (2 * 10 ^ 11 + p) / (2 * p)
        | .ref, none => 0) % 2 ^ 32 ∧
      (∀ e : Eye, ∃ k, k = (match e with | .left => 16 | .right => 19) ∧
        byteAt b k = (s.eye e).state.code ∧ byteAt b (k + 1) = (if (s.eye e).enabled then 1 else 0) ∧
        byteAt b (k + 2) = (if (s.eye e).state = .listening ∨ (s.eye e).state = .held then (s.ae.reason.get e).code
          else 0)) ∧
      (s.ae.agreement = none → b.extract 22 66 = List.replicate 44 0 ∧ field b 66 4 = 240000 ∧ field b 70 4 = 0) ∧
      (∀ a, s.ae.agreement = some a →
        byteAt b 22 = 1 ∧ field b 23 1 = a.index.left % 256 ∧ field b 24 1 = a.index.right % 256 ∧
        (∀ e : Eye, ∃ k, k = (match e with | .left => 25 | .right => 43) ∧
          field b k 1 = (a.mode.get e).geometry % 256 ∧ field b (k + 1) 4 = (a.mode.get e).normal % 2 ^ 32 ∧
          byteAt b (k + 5) = (if (a.mode.get e).reversed.isSome then 1 else 0) ∧
          field b (k + 6) 4 = (a.mode.get e).reversed.getD 0 % 2 ^ 32 ∧
          field b (k + 10) 4 = (a.mode.get e).blank % 2 ^ 32 ∧
          field b (k + 14) 4 = (a.mode.get e).maxRate % 2 ^ 32) ∧
        byteAt b 61 = bits [a.reversed.left, a.reversed.right, a.scansUp.left, a.scansUp.right, a.opposed] ∧
        field b 62 4 = a.skew % 2 ^ 32 ∧ field b 66 4 = a.ceiling % 2 ^ 32 ∧ field b 70 4 = a.floor % 2 ^ 32) ∧
      byteAt b 74 = s.tp.shutterMode.code ∧ field b 75 4 = s.tp.shutterValue % 2 ^ 32 ∧
      (∀ k, k < 8 →
        byteAt b (79 + 5 * k) = bits [(s.lts.slot k).contents.isSome, (s.lts.slot k).bad,
          (s.lts.slot k).pending.isSome] ∧
        field b (80 + 5 * k) 4 = ((s.lts.slot k).identity.map BitVec.toNat).getD 0) ∧
      byteAt b 119 = s.lts.store.code ∧ field b 120 1 = s.pq.queue.length % 256 ∧
      byteAt b 121 = 0 ∧ byteAt b 122 = s.rcp.notices ∧
      byteAt b 123 = bits [s.rcp.cause.power, s.rcp.cause.pin, s.rcp.cause.request]

/-- CLEAR_NOTICES (R169): RANGE for an undefined notice; otherwise each named notice leaves the set, naming RESET_SEEN
clears the reset-cause record, and ATTN# is high exactly when no notice is left. -/
def Obligations.ClearNoticesRequests : Prop :=
  ∀ (s : State) (mask : BitVec 16) (pad : Nat), s.rcpServes →
    (256 ≤ mask.toNat → exec (.clearNotices mask pad) s = .next
      { s with rcp := s.rcpAnswer (.clearNotices mask) pad .range }) ∧
    (mask.toNat < 256 → ∃ t, exec (.clearNotices mask pad) s = .next t ∧
      t = { s with rcp :=
        { s.rcpAnswer (.clearNotices mask) pad .done with
          notices := t.rcp.notices
          cause := if mask.getLsbD 7 then ⟨false, false, false⟩ else s.rcp.cause } } ∧
      (∀ n : Notice, hasNotice t.rcp.notices n = (hasNotice s.rcp.notices n && !mask.getLsbD n.bit)) ∧
      (t.attnHigh = true ↔ ∀ n : Notice, hasNotice t.rcp.notices n = false))

/-- A notice leaves the set only through a CLEAR_NOTICES that names it, carried by its own command or known by its bytes,
or through a reset (R168). -/
def Obligations.NoticesLeaveOnlyWhenNamed : Prop :=
  ∀ (c : Instr) (s t : State) (n : Notice), exec c s = .next t →
    hasNotice s.rcp.notices n = true → hasNotice t.rcp.notices n = false →
    (∃ mask pad, c = .clearNotices mask pad ∧ mask.getLsbD n.bit = true) ∨
    (∃ bits mask, c = .rcpRecordRefused bits ∧ judgeTransaction (wholeBytes bits) = .request (.clearNotices mask) ∧
      mask.getLsbD n.bit = true) ∨
    t.isHeld = true

/-- A reset comes into force: its flag enters the reset-cause record, the port's NONE replaces every response, and every
block takes its reset values at that instant (R172 to R176); the bits that had gone out on the SDO lines, RESET's own
response among them, are those that had gone out (R162). RST# low for fewer than 1,000 ticks is no reset (R173). That
the command carries the ticks is the model's choice (notes/assumptions/9.md). -/
def Obligations.ResetsComeIntoForce : Prop :=
  ∀ s : State,
    (∀ c kind pad, (∃ n, 1000 ≤ n ∧ c = Instr.pinReset n ∧ kind = ResetKind.pin) ∨ (c = .powerOnReset ∧ kind = .powerOn) ∨
        (s.rcpServes ∧ c = .reset pad ∧ kind = .request) →
      exec c s = .next
        { timebase := 0
          cg := .atReset
          eyes := s.eyes.map fun p => .atReset p.pres p.selLow p.sent
          ae := .atReset
          tp := .atReset
          lts := .atReset s.lts.nv
          lme := .atReset
          pe := .atReset
          pq := .atReset s.pq.selLow s.pq.sent
          rcp := .atReset
            (match kind with
              | .powerOn => ⟨true, false, false⟩
              | .pin => { s.rcp.cause with pin := true }
              | .request => { s.rcp.cause with request := true })
            (match kind with
              | .request => false
              | _ => s.rcp.selLow)
            (match kind with
              | .request => clockOut (responseRecord s.latchedResponse) (requestBits .reset pad)
              | _ => s.rcp.sent)
          resets := match kind with
            | .powerOn => { s.resets with powerOn := some 0 }
            | .pin => { s.resets with pin := true }
            | .request => { s.resets with request := some 0 }
          pending := s.pending }) ∧
    ∀ n, n < 1000 → exec (.pinReset n) s = .next s

/-- The release of a reset of a held part. While another reset is in force the part stays at its reset values; with the
last one the part is released: the timebase counts from 0, each eye port with PRES high enters SETTLING, RESET_SEEN alone
is in the notice set, ATTN# is low, and the load is under way (R175, R25, R110, R161). What a release command finds of a
reset's duration is the model's choice (notes/assumptions/9.md). -/
def Obligations.ResetsAreReleased : Prop :=
  ∀ (s : State) (kind : ResetKind), s.heldSound → s.resets.has kind = true →
    ∃ t, exec (.resetRelease kind) s = .next t ∧
      (t.resets.has kind = false ∧
        ∀ k, k ≠ kind → t.resets.has k = s.resets.has k) ∧
      ((∃ k, k ≠ kind ∧ s.resets.has k = true) → t = { s with resets := t.resets }) ∧
      ((∀ k, k ≠ kind → s.resets.has k = false) →
        t = { s with
          resets := ⟨none, false, none⟩
          eyes := s.eyes.map fun p => if p.pres then { p with state := .settling, timer := .high 0 } else p
          rcp := { s.rcp with notices := 0x80 } } ∧
        t.timebase = 0 ∧ t.attnHigh = false ∧ t.lts.store = .loading ∧ t.isHeld = false)

/-! ## The pair queue and the pair port (Chapter 8) -/

/-- An offered record. With fewer than 64 in the queue it is appended, PRECEDED_BY_LOSS set if owed, with the check of its
bytes as they then stand; at 64 it is dropped, QUEUE_OVERFLOW is raised and the loss is owed (R153, R154). -/
def Obligations.OfferedRecordsQueueOrDrop : Prop :=
  ∀ (r : PairRecord) (s : State),
    (s.pq.queue.length < 64 → ∃ q : QueuedRecord,
      q.record = { r with precededByLoss := s.pq.precededByLoss } ∧ q.check = recordCheck q.record.bytes ∧
      offer r s = { s with pq := { s.pq with queue := s.pq.queue ++ [q], precededByLoss := false } }) ∧
    (64 ≤ s.pq.queue.length → ∃ t, offer r s = t ∧
      t = { s with pq := { s.pq with precededByLoss := true }, rcp := { s.rcp with notices := t.rcp.notices } } ∧
      ∀ n : Notice, hasNotice t.rcp.notices n = (hasNotice s.rcp.notices n || decide (n = .queueOverflow)))

/-- The pair port's reads. The falling edge latches the head, or the EMPTY record when the queue is empty; the rising edge
removes the head exactly when it was latched and all 74 bytes went out; a read that a reset abandoned, or that begins in
one, carries 0x00 from there on and removes nothing; SDO is low between transactions; RDY# is high exactly while the queue
is empty (R152, R156, R157, R158, R159; notes/assumptions/5.md, 26.md). With P_SEL# high the rising-edge command stands for
the whole transaction: the model's choice (notes/assumptions/4.md). -/
def Obligations.PairPortReads : Prop :=
  (∀ (s : State) (early : Nat), s.pq.selLow = false →
    (s.isHeld = false → ∀ record, record = (match s.pq.queue.head? with | some r => r.bytes | none => emptyRecord) →
      ∃ t, exec (.pairReadStart early) s = .next t ∧
        t = { s with pq :=
          { s.pq with
            selLow := true, read := some ⟨s.pq.queue.head?, early / 8⟩, sent := clockOut record early } } ∧
        t.pq.sdoHigh = (toBits record).getD early false) ∧
    (s.isHeld = true → exec (.pairReadStart early) s = .next
      { s with pq := { s.pq with selLow := true, read := none, sent := List.replicate early false } }) ∧
    s.pq.sdoHigh = false) ∧
  (∀ (s : State) (n : Nat) (latched : Option QueuedRecord),
    (s.pq.selLow = true ∧ (∃ k, s.pq.read = some ⟨latched, k⟩)) ∨
      (s.pq.selLow = false ∧ s.isHeld = false ∧ latched = s.pq.queue.head?) →
    exec (.pairReadEnd n) s = .next
      { s with pq :=
        { s.pq with
          selLow := false
          read := none
          sent := clockOut (match latched with | some r => r.bytes | none => emptyRecord) n
          queue := if latched.isSome ∧ 74 ≤ n / 8 then s.pq.queue.tail else s.pq.queue } }) ∧
  (∀ (s : State) (n : Nat),
    (s.pq.selLow = true → s.pq.read = none → exec (.pairReadEnd n) s = .next
      { s with pq :=
        { s.pq with selLow := false, sent := s.pq.sent.take n ++ List.replicate (n - s.pq.sent.length) false } }) ∧
    (s.pq.selLow = false → s.isHeld = true → exec (.pairReadEnd n) s = .next
      { s with pq := { s.pq with selLow := false, read := none, sent := List.replicate n false } })) ∧
  ∀ s : State, s.rdyHigh = true ↔ s.pq.queue = []

/-! ## The cadence (Chapter 1) -/

/-- ROLL (R3, R24, R67, R121). Where a condition of R3 fails it is answered STATE and changes nothing. Otherwise the take
number counts up, the rig is ROLLING with both eyes still AGREED, last readout starts and previous targets are cleared;
with source REF the lead mark is owed, and with source FREE the plan for the first rolling mark begins at once, with
everything its snapshot takes, the step of the rate, and the mark scheduled one planned period ahead (R11, R12, R15, R68,
R69, R79, R120), on the held table changes applied (R102), of which a rig in SETUP has none. That the clearing marks both
eyes where a plan is in progress, whatever previous targets they had, is the model's choice (notes/assumptions/29.md). -/
def Obligations.RollStartsTake : Prop :=
  ∀ (s : State) (pad : Nat), s.rcpServes →
    (¬ s.rollAllowed → exec (.roll pad) s = .next { s with rcp := s.rcpAnswer .roll pad .state }) ∧
    (s.rollAllowed → s.cg.source = .ref → exec (.roll pad) s = .next
      { s with
        cg := { s.cg with take := s.cg.take + 1, rig := .rolling, drainCount := 0, leadOwed := true }
        tp := { s.tp with lastReadout := ⟨none, none⟩ }
        lme :=
          { s.lme with
            previous := ⟨.all none, .all none⟩
            clearMark := if s.tp.inProgress.isSome then ⟨true, true⟩ else s.lme.clearMark }
        rcp := s.rcpAnswer .roll pad .done }) ∧
    (s.rollAllowed → s.cg.source = .free → ∀ a, s.ae.agreement = some a →
      ∃ t plan, exec (.roll pad) s = .next t ∧
        t = { s with
          cg := t.cg, tp := t.tp, lts := t.lts, lme := { s.lme with previous := t.lme.previous, clearMark := t.lme.clearMark }
          rcp := s.rcpAnswer .roll pad .done } ∧
        t.cg = { s.cg with
          take := s.cg.take + 1, rig := .rolling, drainCount := 0, leadOwed := false
          currentRate := t.cg.currentRate, ramp := t.cg.ramp, planPeriod := t.cg.planPeriod, nextMark := t.cg.nextMark } ∧
        t.tp = { s.tp with lastReadout := ⟨none, none⟩, inProgress := some plan } ∧
        t.lme.previous = ⟨.all none, .all none⟩ ∧ beganPlan a s t plan ∧ plan.included = ⟨true, true⟩ ∧
        ((∀ l ∈ s.lts.slots, l.pending = none) → t.lts = s.lts))

/-- RATE, whole (R13): STATE with source REF; otherwise the target limited to 1,000 to 240,000 mfps and to the agreed
ceiling, CLAMPED if that changed it, held at once (N = 0) or with a ramp from the current rate (N > 0). -/
def Obligations.RateRequests : Prop :=
  ∀ (s : State) (target : BitVec 32) (marks : BitVec 16) (pad : Nat), s.rcpServes →
    (s.cg.source = .ref → exec (.rate target marks pad) s = .next
      { s with rcp := s.rcpAnswer (.rate target marks) pad .state }) ∧
    (s.cg.source = .free → ∀ limited,
      limited = min (min (max target.toNat 1000) 240000)
        (match s.ae.agreement with | some a => a.ceiling | none => 240000) →
      exec (.rate target marks pad) s = .next
        { s with
          cg :=
            { s.cg with
              targetRate := limited
              ramp := if marks = 0 then none else some ⟨s.cg.currentRate, limited, 0, marks.toNat⟩
              currentRate := if marks = 0 ∧ s.cg.rig ≠ .rolling then limited else s.cg.currentRate }
          rcp := s.rcpAnswer (.rate target marks) pad (if limited = target.toNat then .done else .clamped) } ∧
      ∀ t, exec (.rate target marks pad) s = .next t → marks = 0 → t.cg.stepRate = limited)

/-- SOURCE, whole (R16, R167): RANGE for no source, STATE outside SETUP; naming the source in force changes nothing; REF
starts seeking and ends a ramp at its target; FREE drops the reference and its scheduled mark; and with the reference OFF a
REFIN edge does nothing. -/
def Obligations.SourceRequests : Prop :=
  (∀ (s : State) (code : Byte) (pad : Nat), s.rcpServes →
    (code ≠ 0 → code ≠ 1 → exec (.source code pad) s = .next
      { s with rcp := s.rcpAnswer (.source code) pad .range }) ∧
    (code = 0 ∨ code = 1 → s.cg.rig ≠ .setup → exec (.source code pad) s = .next
      { s with rcp := s.rcpAnswer (.source code) pad .state }) ∧
    (s.cg.rig = .setup → (code = 0 ∧ s.cg.source = .free) ∨ (code = 1 ∧ s.cg.source = .ref) →
      exec (.source code pad) s = .next { s with rcp := s.rcpAnswer (.source code) pad .done }) ∧
    (s.cg.rig = .setup → code = 1 → s.cg.source = .free → exec (.source code pad) s = .next
      { s with
        cg :=
          { s.cg with
            source := .ref, ref := .seeking, period := none, seek := ⟨none, none, 0⟩
            targetRate := match s.cg.ramp with | some r => r.r1 | none => s.cg.targetRate
            ramp := none }
        rcp := s.rcpAnswer (.source code) pad .done }) ∧
    (s.cg.rig = .setup → code = 0 → s.cg.source = .ref → exec (.source code pad) s = .next
      { s with
        cg :=
          { s.cg with
            source := .free, ref := .off, period := none, seek := ⟨none, none, 0⟩, lock := ⟨none, 0, false⟩
            nextMark := none, window := none }
        rcp := s.rcpAnswer (.source code) pad .done })) ∧
  ∀ s : State, s.cg.ref = .off → exec .refinEdge s = .next s

/-- The rate and period of a plan with source FREE. A ramp's step rate is its exact rate rounded half away from its
start, stays between its two ends and reaches the second with the last step, which removes the ramp (R15). The effective
rate is the step rate limited to 1,000 and the ceiling, the plan is clamped exactly when the ceiling cut it (R12), and the
period lies between 416,667 and 100,000,000 ticks and never below the readout floor (R11). -/
def Obligations.PlanRatesAndPeriods : Prop :=
  (∀ c : Cadence, c.ramp = none → c.stepRate = c.targetRate ∧ c.steppedRamp = none) ∧
  (∀ (c : Cadence) (r : Ramp), c.ramp = some r → r.k < r.marks →
    min r.r0 r.r1 ≤ c.stepRate ∧ c.stepRate ≤ max r.r0 r.r1 ∧
    2 * (((c.stepRate : Int) - r.r0) * r.marks - ((r.r1 : Int) - r.r0) * (r.k + 1)).natAbs ≤ r.marks ∧
    (2 * (((c.stepRate : Int) - r.r0) * r.marks - ((r.r1 : Int) - r.r0) * (r.k + 1)).natAbs = r.marks →
      (((r.r1 : Int) - r.r0) * (r.k + 1)).natAbs ≤ ((c.stepRate : Int) - r.r0).natAbs * r.marks) ∧
    (r.k + 1 < r.marks → c.steppedRamp = some { r with k := r.k + 1 }) ∧
    (r.k + 1 = r.marks → c.stepRate = r.r1 ∧ c.steppedRamp = none)) ∧
  (∀ (c : Cadence) (a : Agreement) (now : Time), c.source = .free → 1000 ≤ a.ceiling → a.ceiling ≤ 240000 →
    a.floor ≤ 100000000 → ∀ r p, r = min (max c.stepRate 1000) a.ceiling → p = (planCadence c a).period →
      p = max ((2 * 10 ^ 11 + r) / (2 * r)) a.floor ∧ 416667 ≤ p ∧ p ≤ 100000000 ∧ 1000 ≤ r ∧
      ((planCadence c a).rateClamped = true ↔ a.ceiling < c.stepRate) ∧
      c.beginPlan a now =
        { c with currentRate := r, ramp := c.steppedRamp, planPeriod := p, nextMark := some (now + BitVec.ofNat 48 p) })

/-- CUT (R6, R64, R73, R89, R102): STATE outside ROLLING. In ROLLING the rig drains, the plan for the next mark is
discarded, the ramp freezes, the next mark keeps its time, RUNNING eyes become AGREED, every buffer takes HALT, or the
directive owed to an eye that is not AGREED; pulses already laid and open slots stay, and no table change is left
pending: each held COMMIT and DISCARD is applied (R103, R104), which finds no plan in progress any more and so sets no
clear-since-start mark (R120). The freeze of the target rate with source REF is the
model's reading (notes/assumptions/19.md). -/
def Obligations.CutEndsTake : Prop :=
  ∀ (s : State) (pad : Nat), s.rcpServes →
    (s.cg.rig ≠ .rolling → exec (.cut pad) s = .next { s with rcp := s.rcpAnswer .cut pad .state }) ∧
    (s.cg.rig = .rolling → ∃ t, exec (.cut pad) s = .next t ∧
      t = { s with
        cg :=
          { s.cg with
            rig := .draining, drainCount := 0, leadOwed := false, ramp := none, targetRate := s.cg.currentRate }
        tp := { s.tp with inProgress := none, prepared := none }
        eyes := t.eyes, lts := t.lts, lme := t.lme
        rcp := s.rcpAnswer .cut pad .done } ∧
      (∀ e, t.eye e =
        { s.eye e with
          state := if (s.eye e).state = .running then .agreed else (s.eye e).state
          fresh := true
          txn := (s.eye e).txn.map fun x => { x with writeSinceLatch := true }
          buffer := some (s.drainDirective e) }) ∧ t.lme.clearMark = s.lme.clearMark ∧
      (∀ l ∈ t.lts.slots, l.pending = none) ∧ (s.storeSound → heldApplied s t) ∧
      ((∀ l ∈ s.lts.slots, l.pending = none) → t.lts = s.lts ∧ t.lme = s.lme))

/-- A rolling mark with its plan prepared (R4, R5, R68, R78, R84, R85, R87, R102, R131, R132): the mark takes the counter's
number and the counter moves up by one; the open slots age; the served eyes that were AGREED become RUNNING, their trigger
numbers 0, and every other eye keeps its state; the mark's slot opens with the plan's values and, unless the plan is
skipped, each served eye's pulse is laid at mark + slip + offset, or fires at once where both are 0; a plan that fires sets
the last readout starts; every held table change is applied; and the next plan, for the next number, begins with all its
snapshot takes and the step of the rate (R11, R12, R15, R69, R79, R120). With source REF the mark leaves its event in its
window, or the next mark where an edge has already set it (R18, R19, R22). That the mark's command runs the clock on to the
mark's time is the model's choice (notes/assumptions/2.md). -/
def Obligations.RollingMarksNumberAndPlan : Prop :=
  ∀ (s : State) (m : Time) (plan : Plan) (a : Agreement), s.isHeld = false → s.cg.rig = .rolling →
    s.cg.leadOwed = false → s.cg.nextMark = some m → s.tp.inProgress = none → s.tp.prepared = some plan →
    s.ae.agreement = some a →
    ∃ t next, exec .rollingMark s = .next t ∧ t.timebase = s.timebase + BitVec.ofNat 48 (ticksUntil s.timebase m) ∧
      t.cg = { s.cg with
        markCounter := s.cg.markCounter + 1, lastMark := some (s.cg.markCounter, t.timebase), lock := t.cg.lock
        window := t.cg.window, nextMark := t.cg.nextMark, currentRate := t.cg.currentRate, ramp := t.cg.ramp
        planPeriod := t.cg.planPeriod } ∧
      markPassed m (some s.cg.markCounter) s t ∧ beganPlan a s t next ∧ t.ae = s.ae ∧ t.lme.demand = s.lme.demand ∧
      t.tp.shutterMode = s.tp.shutterMode ∧ t.tp.shutterValue = s.tp.shutterValue ∧ t.tp.prepared = none ∧
      (∀ e, (t.eye e).state =
        if plan.included.get e = true ∧ plan.departed.get e = false ∧ (s.eye e).state = .agreed then .running
        else (s.eye e).state) ∧
      (∀ e, t.tp.lastReadout.get e =
        if plan.included.get e = true ∧ plan.departed.get e = false ∧ plan.skipped = false then
          some (t.timebase + BitVec.ofNat 48 (plan.slip + plan.offset.get e) + BitVec.ofNat 48 plan.exposure)
        else s.tp.lastReadout.get e) ∧
      (s.storeSound → heldApplied s t) ∧ (s.listsSound → s.pulsesSound → opensSlot plan s t)

/-- Lead marks, setup reference marks and drain marks take no number and fire nothing (R5, R9, R10, R24). With source REF
each leaves its event in its window, or the next mark where an edge has already set it (R18, R19, R22). A lead mark begins
the plan for the first rolling mark, with all its snapshot takes (R68, R69, R79, R120) and every held table change applied
(R102); a setup reference mark touches the cadence alone; a drain mark counts, ages the window and times slots out as
RetirementInMarkOrder says of ageWindow (R132, R142), and the W-th empties the window of a sound state and returns the rig to
SETUP: where both eyes hold CAPS and one is not AGREED the choice then places them (R56, R64), and otherwise they stay as they
are. That each command runs the clock on to its mark is the model's choice (notes/assumptions/2.md). -/
def Obligations.UnnumberedMarks : Prop :=
  ∀ (s : State) (m : Time), s.isHeld = false → s.cg.nextMark = some m →
    (s.cg.rig = .setup → ∃ t, exec .setupReferenceMark s = .next t ∧ t = { waitUntil m s with cg := t.cg } ∧
      t.cg = { s.cg with nextMark := t.cg.nextMark, window := t.cg.window, lock := t.cg.lock } ∧ markPassed m none s t ∧
      (s.cg.source = .free → t.cg.nextMark = none)) ∧
    (s.cg.rig = .rolling → s.cg.leadOwed = true → s.cg.source = .ref → ∀ a, s.ae.agreement = some a →
      ∃ t plan, exec .leadMark s = .next t ∧
        t = { waitUntil m s with
          cg := t.cg, tp := { s.tp with inProgress := some plan }, lts := t.lts
          lme := { s.lme with previous := t.lme.previous, clearMark := t.lme.clearMark } } ∧
        t.cg = { s.cg with
          nextMark := t.cg.nextMark, window := t.cg.window, lock := t.cg.lock, leadOwed := false
          planPeriod := t.cg.planPeriod } ∧
        markPassed m none s t ∧ beganPlan a s t plan ∧ (s.storeSound → heldApplied s t)) ∧
    (s.cg.rig = .draining → s.windowSound → ∀ aged, aged = ageWindow (waitUntil m s) →
      ∃ t, exec .drainMark s = .next t ∧
        t = { waitUntil m s with
          cg := t.cg, eyes := t.eyes, ae := t.ae, tp := t.tp, pe := aged.pe, pq := aged.pq, rcp := t.rcp } ∧
        t.cg = { s.cg with
          rig := t.cg.rig, drainCount := t.cg.drainCount, nextMark := t.cg.nextMark, window := t.cg.window
          lock := t.cg.lock } ∧
        markPassed m none s t ∧ ∀ kept : Prop,
        kept = ((∀ e, t.eye e =
            { (waitUntil m s).eye e with lost := (aged.eye e).lost, takenFull := (aged.eye e).takenFull }) ∧
          t.ae = s.ae ∧ t.tp = aged.tp ∧ t.rcp = aged.rcp) →
        (s.cg.drainCount + 1 < s.ae.frame.depth →
          t.cg.rig = .draining ∧ t.cg.drainCount = s.cg.drainCount + 1 ∧ kept ∧
          (s.cg.source = .free → t.cg.nextMark = some (t.timebase + BitVec.ofNat 48 s.cg.planPeriod))) ∧
        (s.cg.drainCount + 1 = s.ae.frame.depth →
          t.cg.rig = .setup ∧ t.cg.drainCount = 0 ∧ t.pe.window = [] ∧ (s.cg.source = .free → t.cg.nextMark = none) ∧
          ((∃ e, (s.eye e).caps = none) ∨ (∀ e, (s.eye e).state = .agreed) → kept) ∧
          ∀ l r outcome, s.eyes.left.caps = some l → s.eyes.right.caps = some r → (∃ e, (s.eye e).state ≠ .agreed) →
            outcome = choose s.ae.frame s.ae.exclusion l.offers r.offers →
            choicePlaced none outcome s t ∧ t.ae.frame = s.ae.frame ∧ t.ae.exclusion = s.ae.exclusion ∧
            (∀ e, (t.eye e).caps = (s.eye e).caps ∧ (t.eye e).lost = (aged.eye e).lost ∧
              (t.eye e).takenFull = (aged.eye e).takenFull) ∧
            t.rcp = { aged.rcp with
              notices := if outcome = none then addNotice aged.rcp.notices .noCommonMode else aged.rcp.notices }))

/-- The mark counter moves at a rolling mark, by one, and at nothing else but a reset (R5). -/
def Obligations.OnlyRollingMarksCount : Prop :=
  ∀ (c : Instr) (s t : State), exec c s = .next t →
    t.cg.markCounter = s.cg.markCounter ∨
    (c = .rollingMark ∧ s.cg.rig = .rolling ∧ t.cg.markCounter = s.cg.markCounter + 1 ∧
      t.cg.lastMark = some (s.cg.markCounter, t.timebase)) ∨
    (t.isHeld = true ∧ t.cg.markCounter = 0)

/-- A REFIN edge in SEEKING (R17): the first records its time; each later one measures the interval; the third good
interval in a row locks, with P the interval and the next mark one P after the edge. -/
def Obligations.SeekingEdges : Prop :=
  ∀ s : State, s.cg.ref = .seeking → (s.cg.seek.good ≠ 0 → s.cg.seek.lastGood.isSome = true) →
    (s.cg.seek.lastEdge = none → exec .refinEdge s = .next
      { s with cg := { s.cg with seek := { s.cg.seek with lastEdge := some s.timebase } } }) ∧
    (∀ last i, s.cg.seek.lastEdge = some last → i = (s.timebase - last).toNat →
      (¬ (400000 ≤ i ∧ i ≤ 100000000) → exec .refinEdge s = .next
        { s with cg := { s.cg with seek := ⟨some s.timebase, none, 0⟩ } }) ∧
      (400000 ≤ i ∧ i ≤ 100000000 → s.cg.seek.good ≠ 0 →
        (∀ j, s.cg.seek.lastGood = some j → j < 200 * ((i : Int) - j).natAbs) → exec .refinEdge s = .next
        { s with cg := { s.cg with seek := ⟨some s.timebase, some i, 1⟩ } }) ∧
      (400000 ≤ i ∧ i ≤ 100000000 →
        (s.cg.seek.good = 0 ∨ ∀ j, s.cg.seek.lastGood = some j → 200 * ((i : Int) - j).natAbs ≤ j) →
        (s.cg.seek.good < 2 → exec .refinEdge s = .next
          { s with cg := { s.cg with seek := ⟨some s.timebase, some i, s.cg.seek.good + 1⟩ } }) ∧
        (2 ≤ s.cg.seek.good → exec .refinEdge s = .next
          { s with cg :=
            { s.cg with
              ref := .locked, period := some i, seek := ⟨none, none, 0⟩, lock := ⟨none, 0, false⟩
              nextMark := some (s.timebase + BitVec.ofNat 48 i)
              window := some ⟨s.timebase + BitVec.ofNat 48 i, i / 8, none⟩ } })))

/-- A locked or held reference (R18 to R22). An edge outside the window is ignored. One inside is attributed: it updates P
from two attributed edges if the candidate passes R20's tests, moves the next mark by at most floor(P/256), and ends
HOLDOVER with REF_BACK and REF_STEP. A window whose mark has been issued and that closes with no edge counts as empty, and
the second in a row in LOCKED gives HOLDOVER with REF_LOST. That the closing command runs the clock on to the window's end is
the model's choice (notes/assumptions/2.md). -/
def Obligations.LockedReference : Prop :=
  ∀ (s : State) (w : RefWindow) (p : Nat), s.cg.ref = .locked ∨ s.cg.ref = .holdover → s.cg.window = some w →
    s.cg.period = some p →
    (w.half < (timeDiff s.timebase w.mark).natAbs → exec .refinEdge s = .next s) ∧
    ((timeDiff s.timebase w.mark).natAbs ≤ w.half →
      ∃ t updated next, exec .refinEdge s = .next t ∧
        (∀ prev i floor ceiling, s.cg.ref = .locked → s.cg.lock.prevEdge = some prev →
          i = (s.timebase - prev).toNat → floor = (match s.ae.agreement with | some a => a.floor | none => 400000) →
          ceiling = (match s.ae.agreement with | some a => a.ceiling | none => 240000) →
          updated =
            if 200 * ((i : Int) - p).natAbs ≤ p ∧ max 400000 floor ≤ i ∧ i ≤ 100000000 ∧
              (2 * 10 ^ 11 + i) / (2 * i) ≤ ceiling then i else p) ∧
        (s.cg.ref = .holdover ∨ s.cg.lock.prevEdge = none → updated = p) ∧
        (∀ used c, used = (match w.event with | none => updated | some ev => ev.period) →
          c = max (-((used / 256 : Nat) : Int)) (min (timeDiff s.timebase w.mark) ((used / 256 : Nat) : Int)) →
          next = w.mark + BitVec.ofInt 48 (used + c)) ∧
        t.cg = { s.cg with
          ref := .locked, period := some updated
          lock := ⟨some s.timebase, 0, (decide (s.cg.ref = .holdover) && w.event.isNone) || s.cg.lock.stepOwed⟩
          nextMark := if w.event.isSome then some next else s.cg.nextMark
          window := some ⟨next, updated / 8, none⟩ } ∧
        t = { s with cg := t.cg, rcp := { s.rcp with notices := t.rcp.notices }, pe := t.pe } ∧
        (∀ n, hasNotice t.rcp.notices n =
          (hasNotice s.rcp.notices n || (decide (s.cg.ref = .holdover) && decide (n = .refBack)))) ∧
        (∀ number, s.cg.ref = .holdover → w.event.bind MarkEvent.number = some number →
          t.pe = { s.pe with
            window := s.pe.window.map fun slot => { slot with refStep := slot.refStep || decide (slot.mark = number) } }) ∧
        (s.cg.ref = .locked ∨ w.event.bind MarkEvent.number = none → t.pe = s.pe)) ∧
    (w.event = none → exec .refWindowClose s = .next s) ∧
    (w.event.isSome = true →
      ∃ t, exec .refWindowClose s = .next t ∧
        t = { waitUntil (w.mark + BitVec.ofNat 48 w.half) s with
          cg := t.cg, rcp := { s.rcp with notices := t.rcp.notices } } ∧
        t.cg = { s.cg with
          ref := if 1 ≤ s.cg.lock.empty then .holdover else s.cg.ref
          lock := { s.cg.lock with prevEdge := none, empty := min (s.cg.lock.empty + 1) 2 }
          nextMark := some (w.mark + BitVec.ofNat 48 p)
          window := some ⟨w.mark + BitVec.ofNat 48 p, p / 8, none⟩ } ∧
        ∀ n, hasNotice t.rcp.notices n = (hasNotice s.rcp.notices n ||
          (decide (s.cg.ref = .locked) && decide (1 ≤ s.cg.lock.empty) && decide (n = .refLost))))

/-! ## The eye ports (Chapter 2) -/

/-- A falling edge of an eye's SEL# (R34, R37, R175): an attached eye of an enabled port is served, its directive buffer
latched with the fresh flag and sent from its first bit; any other transaction is ignored to its end, carries 0x00, judges
and counts nothing, and stays ignored whatever state the eye enters before SEL# rises; while a reset
is in force nothing starts and SDO carries 0x00 (notes/assumptions/26.md). A transaction that a reset or a partial reset
abandoned judges and counts nothing and carries 0x00 from there on (R25, R39; notes/assumptions/5.md). SDO is low between
transactions (R33). -/
def Obligations.EyeTransactionsStart : Prop :=
  (∀ (s : State) (e : Eye) (early : Nat), (s.eye e).selLow = false → (s.eye e).sdoHigh = false ∧
    (s.isHeld = true → exec (.eyeTransactionStart e early) s = .next
      { s with eyes := s.eyes.set e { s.eye e with selLow := true, sent := List.replicate early false } }) ∧
    (s.isHeld = false → (s.eye e).state.attached = true → (s.eye e).enabled = true →
      ∀ image, image = (match (s.eye e).buffer with
          | some d => some ⟨d, (s.eye e).fresh⟩
          | none => none) →
        ∃ t, exec (.eyeTransactionStart e early) s = .next t ∧
          t.eye e =
            { s.eye e with
              selLow := true, txn := some ⟨true, early / 8, early / 8, false⟩, image := image
              sent := clockOut (imageBytes image) early } ∧
          t = { s with eyes := s.eyes.set e (t.eye e) } ∧
          (t.eye e).sdoHigh = (toBits (imageBytes image)).getD early false) ∧
    (s.isHeld = false → (s.eye e).state.attached = false ∨ (s.eye e).enabled = false →
      exec (.eyeTransactionStart e early) s = .next
        { s with eyes :=
          s.eyes.set e { s.eye e with
            selLow := true, txn := some ⟨false, early / 8, early / 8, false⟩, image := none
            sent := List.replicate early false } } ∧
      ∀ bits, exec (.reportDiscarded e bits) s = .next
        { s with eyes :=
          s.eyes.set e { s.eye e with
            selLow := false, txn := none, image := none, sent := List.replicate bits.length false } })) ∧
  ∀ (s : State) (e : Eye) (c : Instr) (n : Nat), (s.eye e).selLow = true →
    (∃ bits, c = .reportDiscarded e bits ∧ n = bits.length) ∨
      (∃ (r : Report) (pad : Nat), reportCommand e r pad = c ∧ n = reportBits r pad) →
    ((s.eye e).txn = none → exec c s = .next
      { s with eyes :=
        s.eyes.set e { s.eye e with
          selLow := false, image := none
          sent := (s.eye e).sent.take n ++ List.replicate (n - (s.eye e).sent.length) false } }) ∧
    ∀ x, (s.eye e).txn = some x → x.served = false → exec c s = .next
      { s with eyes :=
        s.eyes.set e { s.eye e with
          selLow := false, txn := none, image := none, sent := List.replicate n false } }

/-- An accepted report of a kind the eye's state expects, with the receive slot empty, is placed in the slot, and nothing
else of the part changes but the port's own transaction (R40, R41, R43). -/
def Obligations.ExpectedReportsPlaced : Prop :=
  ∀ (s : State) (e : Eye) (pad : Nat), s.eyeServes e → (s.eye e).slot = none →
    (∀ caps : RawCaps, caps.offers.length ≤ 12 → exec (.capsReceived e caps pad) s = .next
      { s with eyes :=
        s.eyes.set e ((s.eye e).ended (reportBits (.caps caps) pad) (some (.caps caps)) (s.eye e).lost) }) ∧
    (∀ index, (s.eye e).state = .proposed →
      exec (.acceptReceived e index pad) s = .next
        { s with eyes :=
          s.eyes.set e ((s.eye e).ended (reportBits (.accept index) pad) (some (.accept index)) (s.eye e).lost) } ∧
      exec (.refuseReceived e index pad) s = .next
        { s with eyes :=
          s.eyes.set e ((s.eye e).ended (reportBits (.refuse index) pad) (some (.refuse index)) (s.eye e).lost) }) ∧
    (∀ frame, (s.eye e).state = .agreed ∨ (s.eye e).state = .running → s.pe.triggers.get e ≠ [] →
      exec (.frameReceived e frame pad) s = .next
        { s with eyes :=
          s.eyes.set e ((s.eye e).ended (reportBits (.frame frame) pad) (some (.frame frame)) (s.eye e).lost) })

/-- A report that R40 does not accept, one the eye's state does not expect, and one that finds the receive slot taken are
discarded: the lost-report count goes up by one, 255 at most, and nothing else changes but the port's own transaction
(R40, R41, R43, R44). After the take of a saturated count at the same instant it is 255; that the instant lasts until a tick
passes is the model's choice (notes/assumptions/28.md). -/
def Obligations.RefusedReportsCounted : Prop :=
  ∀ (s : State) (e : Eye) (pad : Nat), s.eyeServes e →
    (∀ bits, readReport (wholeBytes bits) = none →
      exec (.reportDiscarded e bits) s = .next (s.reportLost e bits.length)) ∧
    (∀ caps : RawCaps, 12 < caps.offers.length ∨ (s.eye e).slot.isSome = true →
        exec (.capsReceived e caps pad) s = .next (s.reportLost e (reportBits (.caps caps) pad))) ∧
    (∀ index, (s.eye e).state ≠ .proposed ∨ (s.eye e).slot.isSome = true →
        exec (.acceptReceived e index pad) s = .next (s.reportLost e (reportBits (.accept index) pad)) ∧
        exec (.refuseReceived e index pad) s = .next (s.reportLost e (reportBits (.refuse index) pad))) ∧
    (∀ frame, ((s.eye e).state ≠ .agreed ∧ (s.eye e).state ≠ .running) ∨ s.pe.triggers.get e = [] ∨
          (s.eye e).slot.isSome = true →
        exec (.frameReceived e frame pad) s = .next (s.reportLost e (reportBits (.frame frame) pad)))

/-- IDLE, whole (R42): an accepted IDLE is dropped: it enters no slot, counts nothing and changes no state but that its
transaction sends the directive and marks it sent by R38; a transaction without a whole record counts as lost. -/
def Obligations.IdleReportsDropped : Prop :=
  ∀ (s : State) (e : Eye), s.eyeServes e →
    (∀ pad, exec (.idle e pad) s = .next
      { s with eyes := s.eyes.set e ((s.eye e).ended (reportBits .idle pad) (s.eye e).slot (s.eye e).lost) }) ∧
    ∀ bits : List Bool, (¬ ∃ kind body, wholeRecord (wholeBytes bits) kind body) →
      ∃ t, exec (.reportDiscarded e bits) s = .next t ∧ (t.eye e).lost = (s.eye e).lostNext

/-- The edges of PRES and the debounce (R26, R27, R28, R47): what each does to the eye's state and presence timer. That
SETTLE_COMPLETE runs the clock on to the last tick of the debounce is the model's choice (notes/assumptions/2.md). -/
def Obligations.PresenceEdges : Prop :=
  ∀ (s : State) (e : Eye),
    (s.isHeld = false → (s.eye e).pres = false →
      ((s.eye e).state = .detached → (s.eye e).enabled = true → exec (.presRise e) s = .next
        { s with eyes := s.eyes.set e { s.eye e with pres := true, state := .settling, timer := .high 0 } }) ∧
      ((s.eye e).state = .detached → (s.eye e).enabled = false → exec (.presRise e) s = .next
        { s with eyes := s.eyes.set e { s.eye e with pres := true } }) ∧
      ((s.eye e).state.attached = true → exec (.presRise e) s = .next
        { s with eyes := s.eyes.set e { s.eye e with pres := true, timer := .low 0 } })) ∧
    (s.isHeld = false → (s.eye e).pres = true →
      ((s.eye e).state = .detached → exec (.presFall e) s = .next
        { s with eyes := s.eyes.set e { s.eye e with pres := false } }) ∧
      ((s.eye e).state = .settling → exec (.presFall e) s = .next
        { s with eyes := s.eyes.set e { s.eye e with pres := false, state := .detached, timer := .idle } }) ∧
      ((s.eye e).state.attached = true → exec (.presFall e) s = .next
        { s with eyes := s.eyes.set e { s.eye e with pres := false, timer := .low 0 } })) ∧
    (s.isHeld = true →
      exec (.presRise e) s = .next { s with eyes := s.eyes.set e { s.eye e with pres := true } } ∧
      exec (.presFall e) s = .next { s with eyes := s.eyes.set e { s.eye e with pres := false } }) ∧
    ∀ c, (s.eye e).state = .settling → (s.eye e).pres = true → (s.eye e).timer = .high c →
      ∃ t, exec (.settleComplete e) s = .next t ∧
        t = { advance (10000000 - c) s with
          eyes := t.eyes
          ae := { s.ae with reason := s.ae.reason.set e .awaitCaps }
          tp := { s.tp with pulses := s.tp.pulses.set e [] }
          rcp := { s.rcp with notices := addNotice s.rcp.notices .eyeChange } } ∧
        t.eye e =
          { (advance (10000000 - c) s).eye e with
            state := .listening, timer := .low 0, buffer := some (.wait .awaitCaps), fresh := true, trig := none
            txn := (s.eye e).txn.map fun x => { x with writeSinceLatch := true } } ∧
        t.eye e.other = (advance (10000000 - c) s).eye e.other

/-- PORT (R31, R32, R180): RANGE where no eye is named; DONE and no change for a port that already is as asked; an enable
puts the eye of a port with PRES high into SETTLING; a disable of a port whose eye is not attached leaves it DETACHED. -/
def Obligations.PortRequests : Prop :=
  ∀ (s : State) (code : Byte) (pad : Nat), s.rcpServes →
    (1 < code.toNat →
      exec (.portEnable code pad) s = .next { s with rcp := s.rcpAnswer (.port code 1) pad .range } ∧
      exec (.portDisable code pad) s = .next { s with rcp := s.rcpAnswer (.port code 0) pad .range }) ∧
    ∀ e : Eye, code = (match e with | .left => 0 | .right => 1) →
      ((s.eye e).enabled = true → exec (.portEnable code pad) s = .next
        { s with rcp := s.rcpAnswer (.port code 1) pad .done }) ∧
      ((s.eye e).enabled = false → exec (.portDisable code pad) s = .next
        { s with rcp := s.rcpAnswer (.port code 0) pad .done }) ∧
      ((s.eye e).enabled = false → (s.eye e).state = .detached → exec (.portEnable code pad) s = .next
        { s with
          rcp := s.rcpAnswer (.port code 1) pad .done
          eyes := s.eyes.set e
            { s.eye e with
              enabled := true
              state := if (s.eye e).pres then .settling else .detached
              timer := if (s.eye e).pres then .high 0 else (s.eye e).timer } }) ∧
      ((s.eye e).enabled = true → (s.eye e).state.attached = false → exec (.portDisable code pad) s = .next
        { s with
          rcp := s.rcpAnswer (.port code 0) pad .done
          eyes := s.eyes.set e { s.eye e with enabled := false, state := .detached, timer := .idle } })

/-- An attached eye leaves for DETACHED in SETUP, by a detach or a PORT disable (R28, R29, R31, R59): its port takes the
partial reset and keeps its lost-report count, its binding and previous targets go, the agreement record is removed, an
other eye with CAPS waits for its peer and one without is untouched, and EYE_CHANGE is raised. That DETACH runs the clock on
to the last tick of its count is the model's choice (notes/assumptions/2.md). -/
def Obligations.LeavingInSetup : Prop :=
  ∀ (c : Instr) (s s' : State) (e : Eye), s.cg.rig = .setup → s.pe.window = [] → (s.eye e).state.attached = true →
    (∃ n, c = .detach e ∧ (s.eye e).pres = false ∧ (s.eye e).timer = .low n ∧ s' = advance (100000 - n) s) ∨
      (∃ code pad, c = .portDisable code pad ∧ code = (match e with | .left => 0 | .right => 1) ∧ s.rcpServes ∧
        (s.eye e).enabled = true ∧
        s' = { s with
          rcp := s.rcpAnswer (.port code 0) pad .done, eyes := s.eyes.set e { s.eye e with enabled := false } }) →
    ∃ t, exec c s = .next t ∧
      t = { s' with
        eyes := t.eyes, ae := t.ae, tp := t.tp, lts := t.lts, lme := t.lme, pe := t.pe
        rcp := { s'.rcp with notices := addNotice s'.rcp.notices .eyeChange } } ∧
      t.eye e =
        { s'.eye e with
          state := .detached, timer := .idle, txn := none, buffer := none, fresh := false, image := none, slot := none
          caps := none, trig := none } ∧
      t.ae.agreement = none ∧ t.ae.exclusion = [] ∧ t.ae.frame = s.ae.frame ∧ t.lts.binding.get e = none ∧
      t.lme.previous.get e = .all none ∧ t.tp.pulses.get e = [] ∧ t.pe.window = [] ∧
      ((s.eye e).state.inTake = true → t.tp.lastReadout.get e = none) ∧
      ((s.eye e.other).caps.isSome = true →
        t.waits e.other .held .awaitPeer ∧ (t.eye e.other).caps = (s.eye e.other).caps) ∧
      ((s.eye e.other).caps = none → t.eye e.other = s'.eye e.other)

/-- An attached eye leaves in ROLLING or DRAINING, by a detach or a PORT disable (R29, R30, R31, R39, R58, R60): its port
takes the partial reset, with a transaction in progress abandoned and its lost-report count kept but for a record that takes
it, the agreement record stays, the exclusion set is emptied, its binding and previous targets go (R120 marks it where a
plan is in progress), and EYE_CHANGE is raised. An eye of the take also loses its pulses, its trigger entries and its open
slot parts (R88, R143), and each plan that included it records the departure (R72); any other eye leaves window, lists and
plans as they are. The other eye keeps its state. The rig drains exactly where it was ROLLING, the eye was of the take and
the other is not (R6, R8), with every held COMMIT and DISCARD applied (R102 to R104). That a DETACH at any low count runs
the clock on to the last tick is the model's choice (notes/assumptions/2.md), that the mark is set for an eye with no
previous targets too is its choice (notes/assumptions/29.md), and that the target rate becomes the current rate with source
REF too is its reading (notes/assumptions/19.md). -/
def Obligations.LeavingDuringTake : Prop :=
  ∀ (c : Instr) (s s' : State) (e : Eye), s.cg.rig ≠ .setup → (s.eye e).state.attached = true →
    (∃ n, c = .detach e ∧ (s.eye e).pres = false ∧ (s.eye e).timer = .low n ∧ s' = advance (100000 - n) s) ∨
      (∃ code pad, c = .portDisable code pad ∧ code = (match e with | .left => 0 | .right => 1) ∧ s.rcpServes ∧
        (s.eye e).enabled = true ∧
        s' = { s with
          rcp := s.rcpAnswer (.port code 0) pad .done, eyes := s.eyes.set e { s.eye e with enabled := false } }) →
    ∃ t, exec c s = .next t ∧
      t = { s' with
        cg := t.cg, eyes := t.eyes, ae := { s.ae with exclusion := [] }
        tp := { s.tp with
          pulses := t.tp.pulses, lastReadout := t.tp.lastReadout, inProgress := t.tp.inProgress, prepared := t.tp.prepared }
        lts := { s.lts with slots := t.lts.slots, binding := t.lts.binding }
        lme :=
          { s.lme with
            previous := t.lme.previous
            clearMark := if s.tp.inProgress.isSome then s.lme.clearMark.set e true else s.lme.clearMark }
        pe := t.pe, pq := t.pq, rcp := { s'.rcp with notices := t.rcp.notices } } ∧
      (∀ buffer fresh, buffer = (t.eye e).buffer → fresh = (t.eye e).fresh → t.eye e =
        { s'.eye e with
          state := .detached, timer := .idle, txn := none, buffer := buffer, fresh := fresh, image := none, slot := none
          caps := none, trig := none, lost := (t.eye e).lost, takenFull := (t.eye e).takenFull }) ∧
      (t.eye e.other).state = (s.eye e.other).state ∧ hasNotice t.rcp.notices .eyeChange = true ∧
      t.lts.binding.get e = none ∧ t.lme.previous.get e = .all none ∧ t.tp.pulses.get e = [] ∧
      (s.storeSound → t.boundByIdentity) ∧
      ((s.eye e).state.inTake = true → partsLost e s' t ∧ t.tp.lastReadout = s.tp.lastReadout.set e none) ∧
      ((s.eye e).state.inTake = false →
        t.pe = s.pe ∧ t.pq = s.pq ∧
        (∀ e', (t.eye e').lost = (s.eye e').lost ∧ (t.eye e').takenFull = (s'.eye e').takenFull) ∧
        t.tp = { s.tp with pulses := s.tp.pulses.set e [] }) ∧
      ∀ drains : Prop,
        drains = (s.cg.rig = .rolling ∧ (s.eye e).state.inTake = true ∧ (s.eye e.other).state.inTake = false) →
        (¬ drains →
          t.cg = s.cg ∧ t.lts.slots = s.lts.slots ∧ (t.eye e).buffer = none ∧ (t.eye e).fresh = false ∧
          t.eye e.other =
            { s'.eye e.other with lost := (t.eye e.other).lost, takenFull := (t.eye e.other).takenFull } ∧
          t.lme.previous.get e.other = s.lme.previous.get e.other ∧
          t.lts.binding.get e.other = s.lts.binding.get e.other ∧
          ((s.eye e).state.inTake = true → plansDeparted e s t)) ∧
        (drains →
          t.cg =
            { s.cg with
              rig := .draining, drainCount := 0, leadOwed := false, ramp := none, targetRate := s.cg.currentRate } ∧
          t.tp.inProgress = none ∧ t.tp.prepared = none ∧ (∀ k, t.lts.slot k = (s.lts.slot k).withHeld) ∧
          (t.eye e).buffer = some .halt ∧ (t.eye e).fresh = true ∧
          t.eye e.other =
            { s'.eye e.other with
              lost := (t.eye e.other).lost, takenFull := (t.eye e.other).takenFull
              fresh := true, buffer := some (s.drainDirective e.other)
              txn := (s.eye e.other).txn.map fun x => { x with writeSinceLatch := true } })

/-- The TRIG line (R46, R85, R86, R134). Of the scheduled pulses of an eye in RUNNING or AGREED the one due first, of the
lowest mark where several fall at one tick, fires at its own time: TRIG rises, the pulse takes the eye's trigger number, which
counts up, and leaves the list; its entry joins the trigger list and the part of its slot becomes AWAITED. TRIG falls 100
ticks after it rose. An eye in any other state, or with no pulse scheduled, fires nothing. That each command runs the clock on
to its instant is the model's choice (notes/assumptions/2.md), and so is that a later mark's pulse with the earlier time fires
first (notes/assumptions/30.md). -/
def Obligations.TriggerPulsesFire : Prop :=
  ∀ (s : State) (e : Eye),
    (∀ before p rest, s.tp.pulses.get e = before ++ p :: rest →
      (∀ q ∈ before, timeDiff p.time s.timebase < timeDiff q.time s.timebase) →
      (∀ q ∈ rest, timeDiff p.time s.timebase ≤ timeDiff q.time s.timebase) → (s.eye e).state.inTake = true →
      exec (.triggerPulse e) s = .next
        { waitUntil p.time s with
          eyes := (waitUntil p.time s).eyes.set e
            { (waitUntil p.time s).eye e with trig := some (waitUntil p.time s).timebase }
          tp :=
            { s.tp with
              triggerNumber := s.tp.triggerNumber.set e (s.tp.triggerNumber.get e + 1)
              pulses := s.tp.pulses.set e (before ++ rest) }
          pe :=
            { triggers := s.pe.triggers.set e (s.pe.triggers.get e ++ [⟨s.tp.triggerNumber.get e, p.mark⟩])
              window := s.pe.window.map fun slot =>
                if slot.mark = p.mark ∧ (slot.parts.get e).state = .triggerPending then
                  { slot with parts :=
                    slot.parts.set e { slot.parts.get e with
                      state := .awaited, triggered := true, trigger := s.tp.triggerNumber.get e } }
                else slot } }) ∧
    ((s.eye e).state.inTake = false ∨ s.tp.pulses.get e = [] → exec (.triggerPulse e) s = .next s) ∧
    ∀ since, (s.eye e).trig = some since → exec (.trigPulseEnd e) s = .next
      { waitUntil (since + 100) s with
        eyes := (waitUntil (since + 100) s).eyes.set e { (waitUntil (since + 100) s).eye e with trig := none } }

/-! ## Mode agreement (Chapter 3) -/

/-- PROFILE (R48): STATE outside SETUP, RANGE for any field out of its range; otherwise the nine fields replace those held,
the exclusion set is emptied, and the choice places the eyes (R56) or, where one eye or none holds CAPS, the record goes
and the eye waits for its peer. -/
def Obligations.ProfileRequests : Prop :=
  ∀ (s : State) (p : RawProfile) (pad : Nat), s.rcpServes →
    (s.cg.rig ≠ .setup → exec (.profile p pad) s = .next { s with rcp := s.rcpAnswer (.profile p) pad .state }) ∧
    (s.cg.rig = .setup → ¬ profileInRange p → exec (.profile p pad) s = .next
      { s with rcp := s.rcpAnswer (.profile p) pad .range }) ∧
    (s.cg.rig = .setup → profileInRange p → ∃ t, exec (.profile p pad) s = .next t ∧
      t = { s with
        eyes := t.eyes, ae := t.ae, tp := t.tp
        rcp := { s.rcpAnswer (.profile p) pad .done with notices := t.rcp.notices } } ∧
      t.ae.frame =
        { orientation :=
            ⟨if p.orientationL = 1 then .reflected else .direct, if p.orientationR = 1 then .reflected else .direct⟩
          geometry := p.geometry.toNat, rateNeeded := p.rateNeeded.toNat, opposedAccepted := decide (p.opposed = 1)
          anchor := p.anchor.toNat, depth := p.depth.toNat, skewLimit := p.skewLimit.toNat
          tolerance := ⟨p.tolFocus.toNat, p.tolIris.toNat, p.tolZoom.toNat⟩ } ∧
      t.ae.exclusion = [] ∧
      (∀ l r, s.eyes.left.caps = some l → s.eyes.right.caps = some r →
        choicePlaced none (choose t.ae.frame [] l.offers r.offers) s t) ∧
      (∀ e, (s.eye e).caps.isSome = true → (s.eye e.other).caps = none →
        t.ae.agreement = none ∧ t.waits e .held .awaitPeer ∧ t.eye e.other = s.eye e.other) ∧
      (s.eyes.left.caps = none → s.eyes.right.caps = none → t.ae.agreement = none ∧ t.eyes = s.eyes))

/-- The choice takes a feasible pair (R53), builds its record by R54 and R55, and no feasible pair stands before it in the
order of R55; there is no outcome exactly when no pair is feasible; and the agreed ceiling reaches the rate needed. -/
def Obligations.ChoiceTakesPreferredPair : Prop :=
  ∀ (f : TakeFrame) (exclusion : List (Nat × Nat)) (ls rs : List Offer),
    (choose f exclusion ls rs = none ↔ ∀ l ∈ ls, ∀ r ∈ rs, ¬ pairFeasible f exclusion l r) ∧
    ∀ a, choose f exclusion ls rs = some a →
      (∃ l ∈ ls, ∃ r ∈ rs, pairFeasible f exclusion l r ∧ a = pairAgreement f l r ∧
        a.index = ⟨l.index, r.index⟩ ∧ a.mode = ⟨l.mode, r.mode⟩ ∧ a.floor = pairFloor f l r ∧
        a.ceiling = min (min l.mode.maxRate r.mode.maxRate) ((2 * 10 ^ 11 + a.floor) / (2 * a.floor)) ∧
        (∀ e, (a.scansUp.get e = true ↔ (a.mode.get e).up (f.orientation.get e)) ∧
          (a.reversed.get e = true ↔ f.orientation.get e = .reflected ∧ (a.mode.get e).reversed.isSome = true)) ∧
        (a.opposed = true ↔ a.scansUp.left ≠ a.scansUp.right) ∧
        ∀ time lead trig first last : Eye → Int,
          (∀ e, time e = ((a.mode.get e).usedReadout (f.orientation.get e) : Nat)) →
          (∀ e, lead e = time e * (if a.scansUp.get e then 1024 - (f.anchor : Int) else f.anchor) / 1024) →
          (∀ e, trig e = max (lead .left) (lead .right) - lead e) →
          (∀ e, first e = if a.scansUp.get e then time e else 0) →
          (∀ e, last e = if a.scansUp.get e then 0 else time e) → f.anchor ≤ 1024 →
          (a.skew : Int) = max |(trig .left + first .left) - (trig .right + first .right)|
            |(trig .left + last .left) - (trig .right + last .right)|) ∧
      (∀ l ∈ ls, ∀ r ∈ rs, pairFeasible f exclusion l r → ∀ b, b = pairAgreement f l r →
        a.skew < b.skew ∨ (a.skew = b.skew ∧ (b.ceiling < a.ceiling ∨ (a.ceiling = b.ceiling ∧
          (a.index.left < b.index.left ∨ (a.index.left = b.index.left ∧ a.index.right ≤ b.index.right)))))) ∧
      (rateInRange f.rateNeeded → 0 < a.floor → f.rateNeeded ≤ a.ceiling)

/-- A CAPS taken in SETUP (R49, R50, R51, R56). A valid one is held as its record states it (R178: the identity and T_r where
their presence bytes are 01, the axes bit by bit, each offer field for field), the exclusion set is emptied, and the choice places
both eyes, or the eye waits for its peer; an invalid one puts the eye in LISTENING with BAD_CAPS, without CAPS or
agreement, and an other eye with CAPS waits for its peer. -/
def Obligations.CapsTakenInSetup : Prop :=
  ∀ (s : State) (e : Eye) (raw : RawCaps), (s.eye e).slot = some (.caps raw) → s.cg.rig = .setup →
    ((judgeCaps raw).isSome = true ↔ capsValid raw) ∧
    ∃ t, exec (.capsTaken e) s = .next t ∧ (t.eye e).slot = none ∧ t.ae.exclusion = [] ∧ t.ae.frame = s.ae.frame ∧
      t.cg = s.cg ∧ t.timebase = s.timebase ∧ t.lts.slots = s.lts.slots ∧ t.lme.demand = s.lme.demand ∧
      (∀ c, judgeCaps raw = some c →
        c.identity = (if raw.identityPresent = 1 then some raw.identity else none) ∧
        c.axes = ⟨raw.axes.getLsbD 0, raw.axes.getLsbD 1, raw.axes.getLsbD 2⟩ ∧
        List.Forall₂ (fun (sent : RawOffer) (offer : Offer) =>
          offer.index = sent.index.toNat ∧ offer.mode.geometry = sent.geometry.toNat ∧
          offer.mode.normal = sent.normal.toNat ∧
          offer.mode.reversed = (if sent.reversedPresent = 1 then some sent.reversed.toNat else none) ∧
          offer.mode.blank = sent.blank.toNat ∧ offer.mode.maxRate = sent.maxRate.toNat) raw.offers c.offers ∧
        (t.eye e).caps = some c ∧ (t.eye e.other).caps = (s.eye e.other).caps ∧ t.pe = s.pe ∧ t.pq = s.pq ∧
        ((s.eye e.other).caps = none →
          t.ae.agreement = none ∧ t.waits e .held .awaitPeer ∧ t.eye e.other = s.eye e.other) ∧
        (∀ d, (s.eye e.other).caps = some d → ∀ l r, (match e with | .left => (c, d) | .right => (d, c)) = (l, r) →
          choicePlaced (some e) (choose s.ae.frame [] l.offers r.offers) s t)) ∧
      (judgeCaps raw = none →
        t.waits e .listening .badCaps ∧ (t.eye e).caps = none ∧ t.lts.binding.get e = none ∧ t.ae.agreement = none ∧
        ((s.eye e.other).caps.isSome = true → t.waits e.other .held .awaitPeer))

/-- A CAPS taken in ROLLING or DRAINING (R50, R61, R62). The exclusion set is emptied and a valid one is held; the eye, if
it was of the take, leaves it: its open slot parts are MISSING with LOST (R143), each plan that included it records the
departure (R72), where the rig does not drain for want of both eyes (R8), and R120 marks it where a plan is in progress; the
eye is proposed the matching offer of lowest index, which the record then names, or held
with NO_MATCH. An invalid one puts the eye in LISTENING with BAD_CAPS. Neither runs the choice. That an AGREED eye which no
plan includes yet is of the take too, so that its invalid CAPS raises EYE_CHANGE and can drain the rig, is the model's
reading (notes/assumptions/8.md), and that the mark is set for an eye with no previous targets too is its choice
(notes/assumptions/29.md). -/
def Obligations.CapsTakenDuringTake : Prop :=
  ∀ (s : State) (e : Eye) (raw : RawCaps), (s.eye e).slot = some (.caps raw) → s.cg.rig ≠ .setup →
    ∃ t, exec (.capsTaken e) s = .next t ∧ (t.eye e).slot = none ∧ t.ae.exclusion = [] ∧ t.ae.frame = s.ae.frame ∧
      ((s.eye e).state.inTake = true →
        hasNotice t.rcp.notices .eyeChange = true ∧ partsLost e s t ∧
        t.tp.lastReadout = s.tp.lastReadout.set e none ∧ t.lme.previous.get e = .all none ∧
        (s.tp.inProgress.isSome = true → t.lme.clearMark.get e = true)) ∧
      ((s.eye e).state.inTake = false → t.pe = s.pe ∧ t.pq = s.pq ∧ t.tp = { s.tp with pulses := s.tp.pulses.set e [] }) ∧
      (t.eye e.other).state = (s.eye e.other).state ∧
      (∀ drains : Prop,
        drains = (s.cg.rig = .rolling ∧ (s.eye e).state.inTake = true ∧ (s.eye e.other).state.inTake = false) →
        (drains → t.cg.rig = .draining ∧ t.tp.inProgress = none ∧ t.tp.prepared = none) ∧
        (¬ drains → t.cg = s.cg ∧ ((s.eye e).state.inTake = true → plansDeparted e s t))) ∧
      (judgeCaps raw = none →
        t.waits e .listening .badCaps ∧ (t.eye e).caps = none ∧ t.lts.binding.get e = none ∧
        t.ae.agreement = s.ae.agreement) ∧
      ∀ c, judgeCaps raw = some c → (t.eye e).caps = some c ∧
        ((s.ae.agreement = none ∨ ∀ a, s.ae.agreement = some a → ∀ o ∈ c.offers, ¬ o.matchesStored a e) →
          t.waits e .held .noMatch ∧ t.ae.agreement = s.ae.agreement) ∧
        (∀ a o, s.ae.agreement = some a → o ∈ c.offers → o.matchesStored a e →
          (∀ o' ∈ c.offers, o'.matchesStored a e → o.index ≤ o'.index) →
          (t.eye e).placed .proposed (.agree o.index (a.reversed.get e)) ∧
          t.ae.agreement = some { a with index := a.index.set e o.index })

/-- ACCEPT and REFUSE taken (R57, R58, R63). One that names the AGREE in force of a PROPOSED eye: an ACCEPT makes the eye
AGREED with HALT; a REFUSE in SETUP excludes the pair and the choice, run again, takes another; a REFUSE during a take
holds the eye with NO_MATCH. Any other is counted as lost and changes nothing else. -/
def Obligations.AcceptsAndRefuses : Prop :=
  ∀ (s : State) (e : Eye) (index : Byte) (refuse : Bool),
    (s.eye e).slot = some (if refuse then .refuse index else .accept index) →
    ∀ c, c = (if refuse then Instr.refuseTaken e else .acceptTaken e) →
    (¬ ((s.eye e).state = .proposed ∧ ∃ a, s.ae.agreement = some a ∧ a.index.get e = index.toNat) →
      exec c s = .next
        { s with eyes := s.eyes.set e { s.eye e with slot := none, lost := (s.eye e).lostNext } }) ∧
    ∀ a, (s.eye e).state = .proposed → s.ae.agreement = some a → a.index.get e = index.toNat →
      (refuse = false → exec c s = .next
        { s with eyes :=
          s.eyes.set e { s.eye e with
            slot := none, state := .agreed, buffer := some .halt, fresh := true
            txn := (s.eye e).txn.map fun x => { x with writeSinceLatch := true } } }) ∧
      (refuse = true → s.cg.rig ≠ .setup → ∃ t, exec c s = .next t ∧ t.waits e .held .noMatch ∧
        t = { s with
          eyes := s.eyes.set e (t.eye e), tp := { s.tp with pulses := s.tp.pulses.set e [] }
          ae := { s.ae with reason := s.ae.reason.set e .noMatch } }) ∧
      (refuse = true → s.cg.rig = .setup → ∀ l r, s.eyes.left.caps = some l → s.eyes.right.caps = some r →
        ∃ t excluded, exec c s = .next t ∧ excluded = s.ae.exclusion ++ [(a.index.left, a.index.right)] ∧
          t.ae.exclusion = excluded ∧ choicePlaced none (choose s.ae.frame excluded l.offers r.offers) s t ∧
          (∀ b, t.ae.agreement = some b → b.index ≠ a.index) ∧
          t = { s with eyes := t.eyes, ae := t.ae, tp := t.tp, rcp := { s.rcp with notices := t.rcp.notices } })

/-! ## Settings -/

/-- SHUTTER and DEMAND, whole (R75, R115): RANGE for a mode that is neither or an axis that is none of the three; otherwise
the shutter mode and the value limited to its mode's range replace those held, CLAMPED if the limit changed it, and each
present axis takes its demand while the others keep theirs. The next plan begun takes both (R68). -/
def Obligations.ShutterAndDemandRequests : Prop :=
  (∀ (s : State) (mode : Byte) (value : BitVec 32) (pad : Nat), s.rcpServes →
    (1 < mode.toNat → exec (.shutter mode value pad) s = .next
      { s with rcp := s.rcpAnswer (.shutter mode value) pad .range }) ∧
    (∀ m limited, (mode = 0 ∧ m = ShutterMode.angle ∧ limited = min (max value.toNat 1) 36000) ∨
        (mode = 1 ∧ m = .time ∧ limited = min (max value.toNat 100) 100000000) →
      exec (.shutter mode value pad) s = .next
        { s with
          tp := { s.tp with shutterMode := m, shutterValue := limited }
          rcp := s.rcpAnswer (.shutter mode value) pad (if limited = value.toNat then .done else .clamped) })) ∧
  (∀ (s : State) (axes : Byte) (focus iris zoom : BitVec 16) (pad : Nat), s.rcpServes →
    (8 ≤ axes.toNat → exec (.demand axes focus iris zoom pad) s = .next
      { s with rcp := s.rcpAnswer (.demand axes focus iris zoom) pad .range }) ∧
    (axes.toNat < 8 → exec (.demand axes focus iris zoom pad) s = .next
      { s with
        lme :=
          { s.lme with
            demand :=
              { focus := if axes.getLsbD 0 then some focus.toNat else s.lme.demand.focus
                iris := if axes.getLsbD 1 then some iris.toNat else s.lme.demand.iris
                zoom := if axes.getLsbD 2 then some zoom.toNat else s.lme.demand.zoom } }
        rcp := s.rcpAnswer (.demand axes focus iris zoom) pad .done })) ∧
  ∀ (s : State) (a : Agreement), s.ae.agreement = some a → ∃ p, (planStart s).tp.inProgress = some p ∧
    p.snapshot.shutterMode = s.tp.shutterMode ∧ p.snapshot.shutterValue = s.tp.shutterValue ∧
    p.snapshot.demand = s.lme.demand

/-! ## Trigger planning (Chapter 4) -/

/-- The exposure, whole (R74): the three steps, the bounds they leave when P' is at least the readout floor, and the
examples of the rule's table. -/
def Obligations.PlanExposure : Prop :=
  (∀ (s : Snapshot) (first second : Nat),
    first = (match s.shutterMode with
      | .angle => s.period * s.shutterValue / 36000
      | .time => s.shutterValue) →
    second = (if s.period - max s.blank.left s.blank.right < first then s.period - max s.blank.left s.blank.right
      else first) →
    s.exposure = if second < 100 then 100 else second) ∧
  (∀ s : Snapshot, (∀ e, 1000 ≤ s.readout.get e) →
    max s.readout.left s.readout.right + max s.blank.left s.blank.right ≤ s.period →
    1000 ≤ s.period - max s.blank.left s.blank.right ∧
      100 ≤ s.exposure ∧ s.exposure + max s.blank.left s.blank.right ≤ s.period) ∧
  (∀ s : Snapshot, s.period = 416667 → s.shutterMode = .angle → s.shutterValue = 1 →
    s.period * s.shutterValue / 36000 = 11 ∧ s.exposure = 100) ∧
  (∀ s : Snapshot, s.period = 4166667 → max s.blank.left s.blank.right = 50000 →
    (s.shutterMode = .angle → s.shutterValue = 18000 → s.exposure = 2083333) ∧
    (s.shutterMode = .angle → s.shutterValue = 36000 → s.exposure = 4116667) ∧
    (s.shutterMode = .angle → s.shutterValue = 1 → s.exposure = 115) ∧
    (s.shutterMode = .time → s.shutterValue = 5000000 → s.exposure = 4116667) ∧
    (s.shutterMode = .time → s.shutterValue = 100 → s.exposure = 100))

/-- The trigger offsets (R76, R77) and the edge skew they predict (R82). Two included eyes meet at the common centroid with
one offset 0, and their offsets differ by t_R − t_L; one included eye has offset 0 and no skew. The skew of a two-eye plan
is the one of the agreement it was planned under. -/
def Obligations.OffsetsMeetAndPredictSkew : Prop :=
  (∀ (s : Snapshot) (t h : Eye → Nat), s.anchor ≤ 1024 →
    (∀ e, t e = s.readout.get e * (if s.scansUp.get e then 1024 - s.anchor else s.anchor) / 1024) →
    (∀ e, h e = t e + s.exposure / 2) → ∀ trig : Eye → Nat, (∀ e, trig e = s.offset ⟨true, true⟩ e) →
      (∀ e, trig e = max (h .left) (h .right) - h e) ∧ trig .left + h .left = trig .right + h .right ∧
      min (trig .left) (trig .right) = 0 ∧ (trig .left : Int) - trig .right = (t .right : Int) - t .left ∧
      (s.anchor = 512 → ∀ e, t e = s.readout.get e / 2) ∧
      (s.anchor = 0 → ∀ e, t e = if s.scansUp.get e then s.readout.get e else 0) ∧
      ∀ x, x = 0 ∨ x = 1024 → s.edge ⟨true, true⟩ x =
        (trig .left + (s.readout.left * (if s.scansUp.left then 1024 - x else x) / 1024 : Nat) : Int) -
          (trig .right + (s.readout.right * (if s.scansUp.right then 1024 - x else x) / 1024 : Nat)))  ∧
  (∀ (s : Snapshot) (e : Eye) (included : PerEye Bool), included.get e.other = false →
    (∀ e', s.offset included e' = 0) ∧ ∀ x, s.edge included x = 0) ∧
  (∀ p : PlanInProgress, p.plan.p0 = p.snapshot.edge p.included 0 ∧ p.plan.p1024 = p.snapshot.edge p.included 1024 ∧
    p.plan.skew = max p.plan.p0.natAbs p.plan.p1024.natAbs ∧ p.plan.opposed = p.snapshot.opposed) ∧
  ∀ (s : State) (l r : Offer) (departed : PerEye Bool),
    (PlanInProgress.mk (s.snapshot (pairAgreement s.ae.frame l r)) ⟨true, true⟩ departed).plan.skew =
      (pairAgreement s.ae.frame l r).skew

/-- The spacing check, whole (R79, R80, R81): X is the expected time of the mark, or floor(P/256) before it with source
REF; the slip is the larger shortfall of the included eyes that have a last readout start, or 0; and the plan skips its
mark exactly when the slip exceeds floor(P'/4). -/
def Obligations.SlipKeepsSpacing : Prop :=
  (∀ (s : State) (a : Agreement),
    (s.cg.source = .free → (s.snapshot a).expected = s.timebase + BitVec.ofNat 48 (s.snapshot a).period) ∧
    (∀ p, s.cg.source = .ref → s.cg.period = some p → (s.snapshot a).period = p ∧
      (s.snapshot a).expected = s.timebase + BitVec.ofNat 48 (p - p / 256))) ∧
  ∀ (p : PlanInProgress) (shortfall : Eye → Int),
    (∀ e, shortfall e =
      if p.included.get e then
        match p.snapshot.lastReadout.get e with
        | some last => max 0 (timeDiff last p.snapshot.expected + p.snapshot.readout.get e + p.snapshot.blank.get e -
            (p.plan.offset.get e + p.plan.exposure))
        | none => 0
      else 0) →
    (p.plan.slip : Int) = max (shortfall .left) (shortfall .right) ∧
    (p.plan.skipped = true ↔ p.plan.period / 4 < p.plan.slip) ∧
    ∀ e last, p.included.get e = true → p.snapshot.lastReadout.get e = some last →
      timeDiff last p.snapshot.expected + p.snapshot.readout.get e + p.snapshot.blank.get e ≤
        (p.plan.slip + p.plan.offset.get e + p.plan.exposure : Nat)

/-- The plan in progress completes (R70, R72, R83, R120): it becomes the prepared plan, whose targets and flags are, for each
included eye, those of that eye's own bound table, motorised axes and previous targets with the held demand, all as the
snapshot took them, and for any other eye none (R106, R117, R122); each included eye that has not
departed has RUN in its buffer, fresh, and unless its previous targets were cleared since the start they become the new
targets, axis by axis; any other eye is untouched. With no plan in progress nothing happens. -/
def Obligations.PlansComplete : Prop :=
  (∀ s : State, s.tp.inProgress = none → exec .planComplete s = .next s) ∧
  ∀ (s : State) (p : PlanInProgress), s.tp.inProgress = some p → ∃ t, exec .planComplete s = .next t ∧
    t = { s with
      eyes := t.eyes, lme := { s.lme with previous := t.lme.previous }
      tp := { s.tp with inProgress := none, prepared := some p.plan } } ∧
    (∀ e, ∀ axis : Axis → Option AxisTarget,
      (∀ a, axis a =
        if p.included.get e then
          axisTarget
            (match (p.snapshot.lens.get e).table with | some table => table.axes.get a | none => none)
            ((p.snapshot.lens.get e).motorised.get a) (p.snapshot.demand.get a) ((p.snapshot.lens.get e).previous.get a)
        else none) →
      (∀ a, (p.plan.targets.get e).get a = match axis a with | some x => some x.target | none => none) ∧
      ((p.plan.flags.get e).uncalibrated = true ↔
        p.included.get e = true ∧ (p.snapshot.lens.get e).table = none) ∧
      ((p.plan.flags.get e).lag = true ↔ ∃ a x, axis a = some x ∧ x.lagged = true) ∧
      ((p.plan.flags.get e).demandClamped = true ↔ ∃ a x, axis a = some x ∧ x.clamped = true)) ∧
    ∀ e,
      (p.included.get e = true ∧ p.departed.get e = false →
        t.eye e =
          { s.eye e with
            fresh := true, txn := (s.eye e).txn.map fun x => { x with writeSinceLatch := true }
            buffer := some (.run
              { echo := p.snapshot.mark.setWidth 16, period := p.snapshot.period, exposure := p.snapshot.exposure
                offset := p.snapshot.offset p.included e, slip := p.snapshot.slip p.included
                skipped := decide (p.snapshot.period / 4 < p.snapshot.slip p.included)
                targets := p.plan.targets.get e }) } ∧
        (s.lme.clearMark.get e = true → t.lme.previous.get e = s.lme.previous.get e) ∧
        (s.lme.clearMark.get e = false → ∀ a, (t.lme.previous.get e).get a =
          match (p.plan.targets.get e).get a with
          | some target => some target
          | none => (s.lme.previous.get e).get a)) ∧
      (¬ (p.included.get e = true ∧ p.departed.get e = false) →
        t.eye e = s.eye e ∧ t.lme.previous.get e = s.lme.previous.get e)

/-! ## The lens table store (Chapter 5) -/

/-- STAGE_RESET, STAGE_WRITE and READ_SLOT (R95, R96, R112), in every rig and store state. STAGE_RESET leaves the empty
image and 393 bytes of 0x00; a STAGE_WRITE that would pass byte 399 is RANGE and writes nothing, any other replaces exactly
its run; READ_SLOT answers the bytes of the slot's image, 0x00 beyond its end, and changes nothing. -/
def Obligations.StagingAndReadSlotRequests : Prop :=
  ∀ (s : State) (pad : Nat), s.rcpServes →
    (exec (.stageReset pad) s = .next
      { s with
        lts := { s.lts with
          staging := List.replicate 5 0 ++ be 2 (recordCheck (List.replicate 5 0)) ++ List.replicate 393 0 }
        rcp := s.rcpAnswer .stageReset pad .done }) ∧
    (∀ (offset : BitVec 16) (data : List Byte), s.lts.staging.length = 400 →
      (data = [] ∨ 64 < data.length → exec (.stageWrite offset data pad) s = .next
        { s with rcp := s.rcpAnswer (.stageWrite offset data) pad .format }) ∧
      (1 ≤ data.length → data.length ≤ 64 → 400 < offset.toNat + data.length →
        exec (.stageWrite offset data pad) s = .next
          { s with rcp := s.rcpAnswer (.stageWrite offset data) pad .range }) ∧
      (1 ≤ data.length → data.length ≤ 64 → offset.toNat + data.length ≤ 400 →
        ∃ b : List Byte, b.length = 400 ∧
          (∀ i, i < 400 → b.getD i 0 =
            if offset.toNat ≤ i ∧ i < offset.toNat + data.length then data.getD (i - offset.toNat) 0
            else s.lts.staging.getD i 0) ∧
          exec (.stageWrite offset data pad) s = .next
            { s with
              lts := { s.lts with staging := b }, rcp := s.rcpAnswer (.stageWrite offset data) pad .done })) ∧
    ∀ (slot : Byte) (offset : BitVec 16) (n : Byte),
      (7 < slot.toNat ∨ n.toNat < 1 ∨ 64 < n.toNat ∨ 400 < offset.toNat + n.toNat →
        exec (.readSlot slot offset n pad) s = .next
          { s with rcp := s.rcpAnswer (.readSlot slot offset n) pad .range }) ∧
      (slot.toNat ≤ 7 → 1 ≤ n.toNat → n.toNat ≤ 64 → offset.toNat + n.toNat ≤ 400 →
        ∃ b : List Byte, b.length = n.toNat ∧
          (∀ i, i < n.toNat → b.getD i 0 =
            (match (s.lts.slot slot.toNat).contents with
              | some c => c.image
              | none => emptyImage).getD (offset.toNat + i) 0) ∧
          exec (.readSlot slot offset n pad) s = .next
            { s with rcp := s.rcpAnswered (requestBits (.readSlot slot offset n) pad) 0x6E .done b })

/-- COMMIT and DISCARD (R97 to R104). The tests in their order give RANGE, BUSY, BAD_TABLE, DUP_LENS and change nothing. An
accepted change is held, replacing what the slot held pending, exactly when the rig is ROLLING and an eye in AGREED or
RUNNING is bound to the slot; otherwise the slot has its new contents and nothing pending, its bad-at-load mark and the
other slots are as they were, each eye is bound by the identity of its CAPS (R105), and exactly an eye bound to the slot
before or after, or bound anew, has its previous targets cleared and, while a plan is in progress, its clear-since-start mark
set (R120). That the mark is set for an eye that had no previous targets too is the model's choice
(notes/assumptions/29.md). -/
def Obligations.CommitsAndDiscards : Prop :=
  ∀ (s : State) (slot : Byte) (pad : Nat) (c : Instr) (r : Request) (discard : Bool), s.rcpServes →
    s.lts.slots.length = 8 → s.boundByIdentity →
    c = (if discard then Instr.discard slot pad else .commit slot pad) →
    r = (if discard then Request.discard slot else .commit slot) →
    (7 < slot.toNat → exec c s = .next { s with rcp := s.rcpAnswer r pad .range }) ∧
    (slot.toNat ≤ 7 → s.lts.store = .loading → exec c s = .next { s with rcp := s.rcpAnswer r pad .busy }) ∧
    (slot.toNat ≤ 7 → s.lts.store ≠ .loading → discard = false → readImage s.lts.staging = none →
      exec c s = .next { s with rcp := s.rcpAnswer r pad .badTable }) ∧
    (slot.toNat ≤ 7 → s.lts.store ≠ .loading → discard = false → ∀ copy, readImage s.lts.staging = some copy →
      (∃ j, j < 8 ∧ j ≠ slot.toNat ∧ ((s.lts.slot j).identity = some copy.table.identity ∨
        ∃ c', (s.lts.slot j).pending = some (.commit c') ∧ c'.table.identity = copy.table.identity)) →
      exec c s = .next { s with rcp := s.rcpAnswer r pad .dupLens }) ∧
    ∀ op : PendingOp, slot.toNat ≤ 7 → s.lts.store ≠ .loading →
      (discard = true ∧ op = .discard) ∨
        (discard = false ∧ ∃ copy, op = .commit copy ∧ readImage s.lts.staging = some copy ∧
          ∀ j, j < 8 → j ≠ slot.toNat → (s.lts.slot j).identity ≠ some copy.table.identity ∧
            ∀ c', (s.lts.slot j).pending = some (.commit c') → c'.table.identity ≠ copy.table.identity) →
      ((s.cg.rig = .rolling ∧ ∃ e, (s.eye e).state.inTake = true ∧ s.lts.binding.get e = some slot.toNat) →
        ∃ t, exec c s = .next t ∧
          t = { s with lts := { s.lts with slots := t.lts.slots }, rcp := s.rcpAnswer r pad .done } ∧
          t.lts.slots.length = 8 ∧ t.lts.slot slot.toNat = { s.lts.slot slot.toNat with pending := some op } ∧
          ∀ j, j ≠ slot.toNat → t.lts.slot j = s.lts.slot j) ∧
      (¬ (s.cg.rig = .rolling ∧ ∃ e, (s.eye e).state.inTake = true ∧ s.lts.binding.get e = some slot.toNat) →
        ∃ t, exec c s = .next t ∧
          t = { s with
            lts := { s.lts with slots := t.lts.slots, binding := t.lts.binding }
            lme := { s.lme with previous := t.lme.previous, clearMark := t.lme.clearMark }
            rcp := s.rcpAnswer r pad .done } ∧
          t.lts.slots.length = 8 ∧
          t.lts.slot slot.toNat =
            { s.lts.slot slot.toNat with
              contents := match op with | .commit copy => some copy | .discard => none
              pending := none } ∧
          (∀ j, j ≠ slot.toNat → t.lts.slot j = s.lts.slot j) ∧ t.boundByIdentity ∧
          ∀ e, ∀ cleared : Prop,
            cleared = (s.lts.binding.get e = some slot.toNat ∨ t.lts.binding.get e = some slot.toNat ∨
              t.lts.binding.get e ≠ s.lts.binding.get e) →
            (cleared → t.lme.previous.get e = .all none ∧
              t.lme.clearMark.get e = (s.lme.clearMark.get e || s.tp.inProgress.isSome)) ∧
            (¬ cleared → t.lme.previous.get e = s.lme.previous.get e ∧
              t.lme.clearMark.get e = s.lme.clearMark.get e))

/-- SAVE and the end of its write (R107, R108, R109), and the end of the load (R110): SAVE is RANGE or BUSY, or takes the
slot's image and marks its place unfinished; the completion, 2,000,000 ticks later at the earliest, puts that image in the
place, clears the mark and raises STORE_DONE; the load judges each place in turn, raises STORE_BAD if it marked any and binds each eye by the identity of its CAPS, a new
binding clearing the eye's previous targets (R105, R120). That
SAVE_COMPLETE runs the clock on to the earliest instant is the model's choice (notes/assumptions/2.md), and so is that a
clearing during a plan sets the mark of an eye with no previous targets too (notes/assumptions/29.md). -/
def Obligations.SavesAndLoads : Prop :=
  (∀ (s : State) (slot : Byte) (pad : Nat), s.rcpServes →
    (7 < slot.toNat → exec (.save slot pad) s = .next { s with rcp := s.rcpAnswer (.save slot) pad .range }) ∧
    (slot.toNat ≤ 7 → s.lts.store ≠ .ready → exec (.save slot pad) s = .next
      { s with rcp := s.rcpAnswer (.save slot) pad .busy }) ∧
    (slot.toNat ≤ 7 → s.lts.store = .ready → exec (.save slot pad) s = .next
      { s with
        lts :=
          { s.lts with
            store := .saving, nv := s.lts.nv.set slot.toNat .unfinished
            saving := some ⟨slot.toNat,
              match (s.lts.slot slot.toNat).contents with | some c => c.image | none => emptyImage, s.timebase⟩ }
        rcp := s.rcpAnswer (.save slot) pad .done })) ∧
  (∀ s : State, s.lts.saving = none → exec .saveComplete s = .next s) ∧
  (∀ (s : State) (r : SaveRecord), s.lts.saving = some r → ∃ t, exec .saveComplete s = .next t ∧
    t = { waitUntil (r.accepted + 2000000) s with
      lts :=
        { s.lts with
          store := .ready, saving := none, nv := s.lts.nv.set r.slot (.image r.image)
          slots := s.lts.slots.modify r.slot fun l => { l with bad := false } }
      rcp := { s.rcp with notices := addNotice s.rcp.notices .storeDone } }) ∧
  (∀ s : State, s.lts.store ≠ .loading ∨ s.isHeld = true → exec .loadComplete s = .next s) ∧
  ∀ s : State, s.lts.store = .loading → s.isHeld = false → s.lts.nv.length = 8 →
    ∃ t, exec .loadComplete s = .next t ∧
      t = { s with
        lts := { s.lts with slots := t.lts.slots, store := .ready, binding := t.lts.binding }
        lme := { s.lme with previous := t.lme.previous, clearMark := t.lme.clearMark }
        rcp := { s.rcp with notices := t.rcp.notices } } ∧
      t.lts.slots.length = 8 ∧ t.boundByIdentity ∧
      (∀ e, (t.lts.binding.get e = s.lts.binding.get e → t.lme.previous.get e = s.lme.previous.get e ∧
          t.lme.clearMark.get e = s.lme.clearMark.get e) ∧
        (t.lts.binding.get e ≠ s.lts.binding.get e → t.lme.previous.get e = .all none ∧
          t.lme.clearMark.get e = (s.lme.clearMark.get e || s.tp.inProgress.isSome))) ∧
      (∀ n, hasNotice t.rcp.notices n = true ↔
        hasNotice s.rcp.notices n = true ∨ (n = .storeBad ∧ ∃ k, k < 8 ∧ (t.lts.slot k).bad = true)) ∧
      ∀ k, k < 8 →
        (s.lts.nv[k]? = some .unfinished → t.lts.slot k = ⟨none, none, true⟩) ∧
        ∀ bytes, s.lts.nv[k]? = some (.image bytes) →
          (byteAt bytes 4 = 0 ∧ 7 ≤ bytes.length ∧ field bytes 5 2 = recordCheck (bytes.take 5) →
            t.lts.slot k = ⟨none, none, false⟩) ∧
          (¬ (byteAt bytes 4 = 0 ∧ 7 ≤ bytes.length ∧ field bytes 5 2 = recordCheck (bytes.take 5)) →
            (readImage bytes = none → t.lts.slot k = ⟨none, none, true⟩) ∧
            ∀ c, readImage bytes = some c →
              ((∃ j, j < k ∧ (t.lts.slot j).identity = some c.table.identity) →
                t.lts.slot k = ⟨none, none, true⟩) ∧
              ((∀ j, j < k → (t.lts.slot j).identity ≠ some c.table.identity) →
                t.lts.slot k = ⟨some c, none, false⟩))

/-! ## Lens matching (Chapter 6) -/

/-- The forward computation on a table the store accepts (R117, R118, R119): the demand is clamped to the table's ends and
interpolated within its segment, rounded half away from the segment's start; a breakpoint's demand gives its count; the
ideal lies between the smallest and largest count; and the target moves from the previous one toward the ideal by at most
the slew limit. An axis without a table, that the camera does not motorise, or with no demand held has no target; one with all
three has its target, lagged exactly where it stops short of the ideal, and clamped exactly where the demand lay beyond the
table's ends. -/
def Obligations.ForwardTargets : Prop :=
  (∀ motorised demand previous, axisTarget none motorised demand previous = none) ∧
  ∀ t : AxisTable, t.wf = true →
    (∀ p ∈ t.points, idealCount t p.1 = some p.2) ∧
    (∀ d, ∃ ideal, idealCount t d = some ideal ∧ (∃ p ∈ t.points, p.2 ≤ ideal) ∧ ∃ p ∈ t.points, ideal ≤ p.2) ∧
    (∀ d p, t.points.head? = some p → d ≤ p.1 → idealCount t d = some p.2) ∧
    (∀ d p, t.points.getLast? = some p → p.1 ≤ d → idealCount t d = some p.2) ∧
    (∀ (before rest : List Point) (p q : Point) (d : Nat), t.points = before ++ p :: q :: rest → p.1 ≤ d → d < q.1 →
      ∃ ideal, idealCount t d = some ideal ∧
        roundsTo (((q.2 : Int) - p.2) * ((d : Int) - p.1)) ((q.1 : Int) - p.1) ((ideal : Int) - p.2) ∧
        min p.2 q.2 ≤ ideal ∧ ideal ≤ max p.2 q.2) ∧
    (∀ ideal, slewed t.slew none ideal = ideal) ∧
    (∀ previous ideal, min previous ideal ≤ slewed t.slew (some previous) ideal ∧
      slewed t.slew (some previous) ideal ≤ max previous ideal ∧
      (((ideal : Int) - previous).natAbs ≤ t.slew → slewed t.slew (some previous) ideal = ideal) ∧
      (t.slew < ((ideal : Int) - previous).natAbs →
        ((slewed t.slew (some previous) ideal : Int) - previous).natAbs = t.slew)) ∧
    ∀ motorised demand previous,
      (axisTarget (some t) motorised demand previous = none ↔ motorised = false ∨ demand = none) ∧
      ∀ d, motorised = true → demand = some d → ∃ x ideal, axisTarget (some t) motorised demand previous = some x ∧
        idealCount t d = some ideal ∧ x.target = slewed t.slew previous ideal ∧
        (x.lagged = true ↔ x.target ≠ ideal) ∧
        (x.clamped = true ↔ (∃ p, t.points.head? = some p ∧ d < p.1) ∨ ∃ p, t.points.getLast? = some p ∧ p.1 < d)

/-- The read-back of a count on a table the store accepts (R124, R125) and the comparison (R126): a count beyond the table
gives the demand of its end, a breakpoint's count gives its demand, and any other is interpolated within its segment; the
lens error is the difference of the two read-backs, and a mismatch one above the tolerance. -/
def Obligations.ReadBackDemands : Prop :=
  (∀ t : AxisTable, t.wf = true → ∀ first last, t.points.head? = some first → t.points.getLast? = some last →
    (∀ p ∈ t.points, readBack t p.2 = some p.1) ∧
    (∀ c, ∃ d, readBack t c = some d ∧ first.1 ≤ d ∧ d ≤ last.1) ∧
    (∀ c, (first.2 < last.2 ∧ c ≤ first.2) ∨ (last.2 < first.2 ∧ first.2 ≤ c) → readBack t c = some first.1) ∧
    (∀ c, (first.2 < last.2 ∧ last.2 ≤ c) ∨ (last.2 < first.2 ∧ c ≤ last.2) → readBack t c = some last.1) ∧
    ∀ (before rest : List Point) (p q : Point) (c : Nat), t.points = before ++ p :: q :: rest →
      (p.2 ≤ c ∧ c < q.2) ∨ (q.2 < c ∧ c ≤ p.2) →
      ∃ d, readBack t c = some d ∧ p.1 ≤ d ∧ d ≤ q.1 ∧
        roundsTo (((q.1 : Int) - p.1) * ((c : Int) - p.2)) ((q.2 : Int) - p.2) ((d : Int) - p.1)) ∧
  ∀ (tl tr : AxisTable) (cl cr tolerance dl dr : Nat), readBack tl cl = some dl → readBack tr cr = some dr →
    compareAxis (some tl) (some tr) (some cl) (some cr) tolerance =
      ⟨true, max dl dr - min dl dr, decide (tolerance < max dl dr - min dl dr)⟩

/-! ## Pairing (Chapter 7) -/

/-- A FRAME taken (R136, R137, R138). One whose trigger number matches no entry is counted as lost and changes nothing
else. A matched one removes its entry; the part of its slot becomes REPORTED with what the report carried, STALE exactly
when the echo is not the low 16 bits of the slot's mark; a slot so completed takes its derived values; and complete slots
retire from the front. -/
def Obligations.FramesMatched : Prop :=
  ∀ (s : State) (e : Eye) (f : RawFrame), (s.eye e).slot = some (.frame f) →
    ((∀ x ∈ s.pe.triggers.get e, x.trigger ≠ f.trigger) → exec (.frameTaken e) s = .next
      { s with eyes :=
        s.eyes.set e { s.eye e with slot := none, lost := (s.eye e).lostNext } }) ∧
    ∀ (before rest : List TriggerEntry) (entry : TriggerEntry), s.pe.triggers.get e = before ++ entry :: rest →
      entry.trigger = f.trigger → (∀ x ∈ before, x.trigger ≠ f.trigger) →
      ∃ t, exec (.frameTaken e) s = .next t ∧ (t.eye e).slot = none ∧ t.cg = s.cg ∧ t.ae = s.ae ∧ t.lts = s.lts ∧
        t.lme = s.lme ∧ t.timebase = s.timebase ∧ t.tp.inProgress = s.tp.inProgress ∧ t.tp.prepared = s.tp.prepared ∧
        ∃ (retired : Nat) (window : List PairSlot),
          List.Forall₂ (fun old new =>
            if old.mark = entry.mark then
              ∃ part matched,
                part = { old.parts.get e with
                  state := .reported
                  report := some ⟨f.echo, f.delay.toNat, f.status, frameCounts f⟩
                  stale := decide (f.echo ≠ BitVec.ofNat 16 old.mark.toNat) } ∧
                matched = { old with parts := old.parts.set e part } ∧
                new = if matched.complete then s.derive matched else matched
            else new = old) s.pe.window window ∧
          t.pe.window = window.drop retired ∧ retired ≤ window.length ∧
          (∀ slot ∈ window.take retired, slot.complete = true) ∧
          (∀ slot ∈ t.pe.window.head?, slot.complete = false) ∧
          ∀ x, x ∈ t.pe.triggers.get e ↔
            x ∈ before ++ rest ∧ ∀ slot ∈ window.take retired, slot.mark ≠ x.mark

/-- The derived values of a slot (R139, R140, R141) and its record at retirement (R146, R148, R149): anchor skew, worst-row
skew and SKEW from both reports or none; the kind by the first line of R146's table; PRECEDED_BY_LOSS clear; and the eye
parts. An axis is compared exactly when neither part is UNCALIBRATED, both reports carry its count, and both eyes are bound
to slots with the axis (R123). -/
def Obligations.SlotValuesAndRecords : Prop :=
  (∀ (s : State) (p : PairSlot), (∀ e, (p.parts.get e).state = .reported) →
    ∀ l r, p.parts.left.report = some l → p.parts.right.report = some r → ∀ skew : Int, skew = (l.delay : Int) - r.delay →
      (l.delay ≤ 65535 → r.delay ≤ 65535 → -65535 ≤ skew ∧ skew ≤ 65535) ∧
      ∃ worst : Nat, (worst : Int) = max |p.p0 + skew| |p.p1024 + skew| ∧
        s.derive p = { p with
          anchorSkew := skew, worstSkew := worst, skew := decide (s.ae.frame.skewLimit < worst)
          lens := .of (s.slotLens p) }) ∧
  (∀ (s : State) (p : PairSlot) (e : Eye), (p.parts.get e).state ≠ .reported → s.derive p = p) ∧
  (∀ (s : State) (p : PairSlot) (a : Axis), s.storeSound → ∀ comparable : Prop,
    comparable = (∀ e, (p.parts.get e).flags.uncalibrated = false ∧
      (∃ k c, (p.parts.get e).report = some k ∧ k.counts.get a = some c) ∧
      ∃ j c x, s.lts.binding.get e = some j ∧ (s.lts.slot j).contents = some c ∧ c.table.axes.get a = some x) →
    ((s.slotLens p a).compared = true ↔ comparable) ∧ (¬ comparable → s.slotLens p a = ⟨false, 0, false⟩) ∧
    ∀ (table : Eye → AxisTable) (count demand : Eye → Nat),
      (∀ e, (p.parts.get e).flags.uncalibrated = false ∧
        (∃ k, (p.parts.get e).report = some k ∧ k.counts.get a = some (count e)) ∧
        (∃ j c, s.lts.binding.get e = some j ∧ (s.lts.slot j).contents = some c ∧
          c.table.axes.get a = some (table e)) ∧ readBack (table e) (count e) = some (demand e)) →
      s.slotLens p a =
        ⟨true, max (demand .left) (demand .right) - min (demand .left) (demand .right),
          decide (s.ae.frame.tolerance.get a <
            max (demand .left) (demand .right) - min (demand .left) (demand .right))⟩) ∧
  ∀ (p : PairSlot) (lost : PerEye Nat) (r : PairRecord), r = p.record lost → p.complete = true →
    (p.skipped = true → r.kind = .skipped) ∧
    (p.skipped = false → (∃ e, (p.parts.get e).state = .missing) → r.kind = .orphan) ∧
    (p.skipped = false → (∀ e, (p.parts.get e).state = .reported) → r.kind = .paired) ∧
    (p.skipped = false → (∃ e, (p.parts.get e).state = .reported ∧ (p.parts.get e.other).state = .absent) →
      r.kind = .single) ∧
    r.precededByLoss = false ∧ r.take = p.take ∧ r.mark = p.mark ∧ r.time = p.time ∧ r.period = p.period ∧
    r.exposure = p.exposure ∧ r.slip = p.slip ∧ r.predicted = p.predicted ∧ r.anchorSkew = p.anchorSkew ∧
    r.worstSkew = p.worstSkew ∧ r.skew = p.skew ∧ r.rateClamped = p.rateClamped ∧ r.opposed = p.opposed ∧
    r.holdover = p.holdover ∧ r.refStep = p.refStep ∧ r.lens = p.lens ∧
    (r.lensMismatch = true ↔ ∃ a, (p.lens.get a).mismatch = true) ∧
    ∀ e, r.parts.get e =
      { outcome := match (p.parts.get e).state, (p.parts.get e).triggered with
          | .reported, _ => .reported
          | .absent, _ => .absent
          | _, true => .missingTriggered
          | _, false => .missingUntriggered
        trigger := if (p.parts.get e).triggered then (p.parts.get e).trigger else 0
        offset := (p.parts.get e).offset
        delay := match (p.parts.get e).state, (p.parts.get e).report with | .reported, some k => k.delay | _, _ => 0
        status := match (p.parts.get e).state, (p.parts.get e).report with | .reported, some k => k.status | _, _ => 0
        lostReports := lost.get e, stale := (p.parts.get e).stale, flags := (p.parts.get e).flags
        lost := (p.parts.get e).lost }

/-- Retirement (R147, R150, R155). Complete slots leave the window from the front, in mark order, and no further; their
records are offered in that order, the first with both lost-report counts and the rest with 0; and the counts are 0
afterwards. That each port keeps, to the end of the instant, whether the count taken was 255 is the model's form of the last
order R44 allows (notes/assumptions/28.md). The ageing at a mark event (R132, R142, R88): every open slot is one mark older; in one that reaches age W each
open part becomes MISSING, LOST not set; complete slots retire; no slot of age W stays; and the pulses and trigger entries
of the slots that left are dropped. -/
def Obligations.RetirementInMarkOrder : Prop :=
  (∀ s : State, s.listsSound → ∃ n window,
    List.Forall₂ (fun (old new : PairSlot) => new = { old with
      age := old.age + 1
      parts := if old.age + 1 < s.ae.frame.depth then old.parts else old.parts.map fun part =>
        if part.state = .triggerPending ∨ part.state = .awaited then { part with state := .missing } else part })
      s.pe.window window ∧
    n ≤ window.length ∧ (ageWindow s).pe.window = window.drop n ∧ (∀ slot ∈ window.take n, slot.complete = true) ∧
    (∀ slot ∈ (window.drop n).head?, slot.complete = false) ∧
    (∀ slot ∈ (ageWindow s).pe.window, slot.age < s.ae.frame.depth) ∧
    (∀ e p, p ∈ (ageWindow s).tp.pulses.get e ↔
      p ∈ s.tp.pulses.get e ∧ ∀ slot ∈ window.take n, slot.mark ≠ p.mark) ∧
    (∀ e x, x ∈ (ageWindow s).pe.triggers.get e ↔
      x ∈ s.pe.triggers.get e ∧ ∀ slot ∈ window.take n, slot.mark ≠ x.mark) ∧
    (0 < n → ∀ e, (ageWindow s).eye e = (s.eye e).lostTaken) ∧ (n = 0 → (ageWindow s).pq = s.pq)) ∧
  ∀ s : State, ∃ n, n ≤ s.pe.window.length ∧ (retire s).pe.window = s.pe.window.drop n ∧
    (∀ slot ∈ s.pe.window.take n, slot.complete = true) ∧
    (∀ slot ∈ (s.pe.window.drop n).head?, slot.complete = false) ∧
    (n = 0 → retire s = s) ∧
    (0 < n → ∀ e, (retire s).eye e = (s.eye e).lostTaken) ∧
    (s.pq.queue.length + n ≤ 64 →
      ∃ added, (retire s).pq.queue = s.pq.queue ++ added ∧
        added.map (fun q => { q.record with precededByLoss := false }) =
          (s.pe.window.take n).mapIdx (fun i slot =>
            slot.record (if i = 0 then s.eyes.map EyePort.lost else ⟨0, 0⟩)))

/-! ## Invariants: what every step keeps, from any state that has it -/

/-- Each command of the queue and each tick keep the eye ports and the rig control port's transaction sound and a held part
at its reset values (R26 to R29, R32 to R36, R39, R44, R162, R175). -/
def Obligations.EyePortsStaySound : Prop :=
  ∀ s t : State, s.eyesSound → step s = .next t → t.eyesSound

/-- No pulse is scheduled, and TRIG is low, for an eye outside AGREED and RUNNING, and a plan exists in ROLLING alone and
serves eyes of the take alone, whatever command comes (R45, R68, R69, R72, R73, R88). -/
def Obligations.PulsesStayWithTheTake : Prop :=
  ∀ s t : State, s.pulsesSound → step s = .next t → t.pulsesSound

/-- The pair window holds at most W slots with consecutive marks and falling ages, none of them in SETUP, and pulses and
trigger entries name open slots in the matching state, whatever command comes (R132, R134, R135, R142, R151). -/
def Obligations.WindowAndListsStaySound : Prop :=
  ∀ s t : State, s.listsSound → step s = .next t → t.listsSound

/-- The pair queue holds at most 64 records, each with the check of its bytes, and a latched record stays the head until
its read ends, whatever command comes (R153, R157). -/
def Obligations.PairQueueStaysSound : Prop :=
  ∀ s t : State, s.queueSound → step s = .next t → t.queueSound

/-- The lens table store keeps its form: accepted tables with distinct identities, the staging buffer of 400 bytes, a save
record exactly while SAVING, no change pending outside ROLLING, each eye bound to the VALID slot whose lens
identity equals that of its held CAPS, and to none where no slot does (R94, R99, R102, R105, R107). -/
def Obligations.LensStoreStaysSound : Prop :=
  ∀ s t : State, s.storeSound → step s = .next t → t.storeSound

/-- Every setting and every number that the state tables bound stays in its range, whatever command comes (1.2, 3.2, 3.3,
4.1, 6.1): the previous lens targets too, with the plan in progress and the tables they come from. -/
def Obligations.SettingsStayInRange : Prop :=
  ∀ s t : State, s.settingsInRange → step s = .next t → t.settingsInRange

/-- The reset state, value by value (R1, R2, R25, R47 with 3.2, R67, R93 with R95, R114, R130, R152, R161, R172, R175,
R176), and every invariant above. The levels of the input pins are the model's choice (notes/assumptions/7.md), and so are
the fields no rule names: leadOwed, planPeriod, window (notes/assumptions/11.md), what SDO has carried
(notes/assumptions/10.md) and the mark of a take at the present instant (notes/assumptions/28.md). -/
def Obligations.ResetStateIsSound : Prop :=
  ∀ s, s = State.reset →
    s.timebase = 0 ∧
    s.cg =
      { rig := .setup, source := .free, ref := .off, period := none, seek := ⟨none, none, 0⟩, lock := ⟨none, 0, false⟩
        targetRate := 24000, currentRate := 24000, ramp := none, nextMark := none, lastMark := none, markCounter := 0
        take := 0, drainCount := 0, leadOwed := false, planPeriod := 0, window := none } ∧
    (∀ e, s.eye e =
      { state := .detached, enabled := true, pres := false, timer := .idle, selLow := false, txn := none, buffer := none
        fresh := false, image := none, slot := none, lost := 0, takenFull := false, caps := none, trig := none, sent := [] }) ∧
    s.ae =
      { frame :=
          { orientation := ⟨.direct, .reflected⟩, geometry := 255, rateNeeded := 24000, opposedAccepted := false
            anchor := 512, depth := 4, skewLimit := 50000, tolerance := ⟨10, 10, 10⟩ }
        agreement := none, exclusion := [], reason := ⟨.awaitCaps, .awaitCaps⟩ } ∧
    s.ae.ceiling = 240000 ∧
    s.tp =
      { shutterMode := .angle, shutterValue := 18000, inProgress := none, prepared := none, lastReadout := ⟨none, none⟩
        triggerNumber := ⟨0, 0⟩, pulses := ⟨[], []⟩ } ∧
    s.lts.slots = List.replicate 8 ⟨none, none, false⟩ ∧
    s.lts.staging = List.replicate 5 0 ++ be 2 (recordCheck (List.replicate 5 0)) ++ List.replicate 393 0 ∧
    s.lts.store = .loading ∧ s.lts.saving = none ∧ s.lts.binding = ⟨none, none⟩ ∧
    s.lts.nv = List.replicate 8 (.image emptyImage) ∧
    s.lme = { demand := .all none, previous := ⟨.all none, .all none⟩, clearMark := ⟨false, false⟩ } ∧
    s.pe = { window := [], triggers := ⟨[], []⟩ } ∧
    s.pq = { queue := [], precededByLoss := false, read := none, selLow := false, sent := [] } ∧
    s.rcp.txn = none ∧ s.rcp.response = ⟨.none, 0, []⟩ ∧
    (∀ n, hasNotice s.rcp.notices n = decide (n = .resetSeen)) ∧ s.rcp.cause = ⟨true, false, false⟩ ∧
    s.rcp.selLow = false ∧ s.rcp.sent = [] ∧ s.resets = ⟨none, false, none⟩ ∧ s.pending = [] ∧
    s.attnHigh = false ∧ s.rdyHigh = true ∧ s.rcp.sdoHigh = false ∧ s.pq.sdoHigh = false ∧
    (∀ e, (s.eye e).sdoHigh = false ∧ (s.eye e).trigHigh = false) ∧
    s.eyesSound ∧ s.pulsesSound ∧ s.listsSound ∧ s.queueSound ∧ s.storeSound ∧ s.settingsInRange

end
end

