-- ==== Sys2Proof/Laws/Bytes.lean ====
section
/-! SUPPORT. The big-endian bytes of the records (R177): short forms of `be`, and reading a field that `be` wrote;
and the bits of a link (R33): bytes as they are clocked, and the whole bytes among bits. -/

namespace Sys2Proof.Machine

theorem be_one (n : Nat) : be 1 n = [BitVec.ofNat 8 n] := by simp [be]

theorem be_two (n : Nat) : be 2 n = [BitVec.ofNat 8 (n / 256), BitVec.ofNat 8 n] := by simp [be]

theorem be_four (n : Nat) :
    be 4 n = [BitVec.ofNat 8 (n / 256 ^ 3), BitVec.ofNat 8 (n / 256 ^ 2), BitVec.ofNat 8 (n / 256), BitVec.ofNat 8 n] := by
  simp [be]

theorem be_six (n : Nat) :
    be 6 n = [BitVec.ofNat 8 (n / 256 ^ 5), BitVec.ofNat 8 (n / 256 ^ 4), BitVec.ofNat 8 (n / 256 ^ 3),
      BitVec.ofNat 8 (n / 256 ^ 2), BitVec.ofNat 8 (n / 256), BitVec.ofNat 8 n] := by
  simp [be]

/-- The number of bytes read so far carries into the rest. -/
theorem foldl_be (k n acc : Nat) :
    (be k n).foldl (fun acc b => acc * 256 + b.toNat) acc = acc * 256 ^ k + n % 256 ^ k := by
  induction k generalizing acc with
  | zero => simp [be, Nat.mod_one]
  | succ k ih =>
    simp only [be, List.foldl_cons, ih, BitVec.toNat_ofNat]
    have h : n % 256 ^ (k + 1) = n / 256 ^ k % 256 * 256 ^ k + n % 256 ^ k := by
      rw [Nat.pow_succ, Nat.mod_mul]; ring
    rw [h]
    norm_num
    ring

/-- Reading the bytes of a number gives it back, modulo what they hold. -/
theorem fromBe_be (k n : Nat) : fromBe (be k n) = n % 256 ^ k := by simp [fromBe, foldl_be]

/-- A field between the bytes before it and the bytes after it. -/
theorem field_append (before rest : List Byte) (k n : Nat) :
    field (before ++ (be k n ++ rest)) before.length k = n % 256 ^ k := by
  have h : (be k n).length = k := by
    induction k with
    | zero => rfl
    | succ k ih => simp [be, ih]
  have hd : ((before ++ (be k n ++ rest)).drop before.length).take k = be k n := by
    rw [List.drop_left]
    have := List.take_left (l₁ := be k n) (l₂ := rest)
    rwa [h] at this
  rw [field, hd, fromBe_be]

/-! ## Bits -/

@[simp] theorem byteBits_length (b : Byte) : (byteBits b).length = 8 := by simp [byteBits]

@[simp] theorem toBits_length (bytes : List Byte) : (toBits bytes).length = 8 * bytes.length := by
  induction bytes with
  | nil => rfl
  | cons b bytes ih =>
    have h : toBits (b :: bytes) = byteBits b ++ toBits bytes := rfl
    simp [h, ih]; omega

theorem byteOfBits_byteBits : ∀ b : Byte, byteOfBits (byteBits b) = b := by decide +kernel

/-- Bytes as they are clocked are the whole bytes among their bits, whatever is clocked after them. -/
theorem wholeBytes_toBits (bytes : List Byte) (rest : List Bool) :
    wholeBytes (toBits bytes ++ rest) = bytes ++ wholeBytes rest := by
  induction bytes with
  | nil => rfl
  | cons b bytes ih =>
    have h : toBits (b :: bytes) ++ rest = byteBits b ++ (toBits bytes ++ rest) := by simp [toBits]
    have h8 : byteBits b = [b.getMsbD 0, b.getMsbD 1, b.getMsbD 2, b.getMsbD 3, b.getMsbD 4, b.getMsbD 5, b.getMsbD 6,
      b.getMsbD 7] := rfl
    have hb := byteOfBits_byteBits b
    rw [h8] at hb
    rw [h, h8]
    simp only [List.cons_append, List.nil_append, wholeBytes, ih, hb]

/-- Each eighth bit completes one byte. -/
theorem wholeBytes_length (l : List Bool) : (wholeBytes l).length = l.length / 8 := by
  fun_induction wholeBytes l with
  | case1 _ _ _ _ _ _ _ _ rest ih => simp only [List.length_cons, ih]; omega
  | case2 l h =>
    match l, h with
    | [], _ | [_], _ | [_, _], _ | [_, _, _], _ | [_, _, _, _], _ | [_, _, _, _, _], _ | [_, _, _, _, _, _], _
    | [_, _, _, _, _, _, _], _ => simp
    | _ :: _ :: _ :: _ :: _ :: _ :: _ :: _ :: _, h => exact absurd rfl (h _ _ _ _ _ _ _ _ _)

end Sys2Proof.Machine
end

