-- ==== Sys2Proof/Laws/State.lean ====
section
/-! SUPPORT. The small lemmas of the state's updates (Machine/Ops.lean): what each field reads after each, true by rfl, so
that no later proof unfolds a record update. -/

namespace Sys2Proof.Machine

/-! ## Values held once for each eye -/

@[simp] theorem PerEye_get_set_same {α : Type} (p : PerEye α) (e : Eye) (a : α) : (p.set e a).get e = a := by
  cases e <;> rfl

@[simp] theorem PerEye_get_set_other {α : Type} (p : PerEye α) (e : Eye) (a : α) :
    (p.set e a).get e.other = p.get e.other := by
  cases e <;> rfl

theorem PerEye_get_set {α : Type} (p : PerEye α) (e e' : Eye) (a : α) :
    (p.set e a).get e' = if e' = e then a else p.get e' := by
  cases e <;> cases e' <;> rfl

@[simp] theorem PerEye_get_map {α β : Type} (f : α → β) (p : PerEye α) (e : Eye) : (p.map f).get e = f (p.get e) := by
  cases e <;> rfl

@[simp] theorem PerEye_get_both {α : Type} (a : α) (e : Eye) : (PerEye.both a).get e = a := by
  cases e <;> rfl

@[simp] theorem PerEye_get_of {α : Type} (f : Eye → α) (e : Eye) : (PerEye.of f).get e = f e := by
  cases e <;> rfl

@[simp] theorem Eye_other_other (e : Eye) : e.other.other = e := by
  cases e <;> rfl

theorem Eye_other_ne (e : Eye) : e.other ≠ e := by
  cases e <;> decide

@[simp] theorem PerEye_left {α : Type} (p : PerEye α) : p.get .left = p.left := rfl

@[simp] theorem PerEye_right {α : Type} (p : PerEye α) : p.get .right = p.right := rfl

@[simp] theorem PerAxis_get_of {α : Type} (f : Axis → α) (a : Axis) : (PerAxis.of f).get a = f a := by
  cases a <;> rfl

@[simp] theorem PerAxis_get_map {α β : Type} (f : α → β) (p : PerAxis α) (a : Axis) :
    (p.map f).get a = f (p.get a) := by
  cases a <;> rfl

@[simp] theorem PerAxis_get_all {α : Type} (v : α) (a : Axis) : (PerAxis.all v).get a = v := by
  cases a <;> rfl

/-! ## mapCg -/

@[simp] theorem State.mapCg_timebase (g : Cadence → Cadence) (s : State) : (s.mapCg g).timebase = s.timebase := rfl

@[simp] theorem State.mapCg_cg (g : Cadence → Cadence) (s : State) : (s.mapCg g).cg = g s.cg := rfl

@[simp] theorem State.mapCg_eyes (g : Cadence → Cadence) (s : State) : (s.mapCg g).eyes = s.eyes := rfl

@[simp] theorem State.mapCg_ae (g : Cadence → Cadence) (s : State) : (s.mapCg g).ae = s.ae := rfl

@[simp] theorem State.mapCg_tp (g : Cadence → Cadence) (s : State) : (s.mapCg g).tp = s.tp := rfl

@[simp] theorem State.mapCg_lts (g : Cadence → Cadence) (s : State) : (s.mapCg g).lts = s.lts := rfl

@[simp] theorem State.mapCg_lme (g : Cadence → Cadence) (s : State) : (s.mapCg g).lme = s.lme := rfl

@[simp] theorem State.mapCg_pe (g : Cadence → Cadence) (s : State) : (s.mapCg g).pe = s.pe := rfl

@[simp] theorem State.mapCg_pq (g : Cadence → Cadence) (s : State) : (s.mapCg g).pq = s.pq := rfl

@[simp] theorem State.mapCg_rcp (g : Cadence → Cadence) (s : State) : (s.mapCg g).rcp = s.rcp := rfl

@[simp] theorem State.mapCg_resets (g : Cadence → Cadence) (s : State) : (s.mapCg g).resets = s.resets := rfl

@[simp] theorem State.mapCg_pending (g : Cadence → Cadence) (s : State) : (s.mapCg g).pending = s.pending := rfl

/-! ## mapEyes -/

@[simp] theorem State.mapEyes_timebase (g : PerEye EyePort → PerEye EyePort) (s : State) :
    (s.mapEyes g).timebase = s.timebase := rfl

@[simp] theorem State.mapEyes_cg (g : PerEye EyePort → PerEye EyePort) (s : State) : (s.mapEyes g).cg = s.cg := rfl

@[simp] theorem State.mapEyes_eyes (g : PerEye EyePort → PerEye EyePort) (s : State) :
    (s.mapEyes g).eyes = g s.eyes := rfl

@[simp] theorem State.mapEyes_ae (g : PerEye EyePort → PerEye EyePort) (s : State) : (s.mapEyes g).ae = s.ae := rfl

@[simp] theorem State.mapEyes_tp (g : PerEye EyePort → PerEye EyePort) (s : State) : (s.mapEyes g).tp = s.tp := rfl

@[simp] theorem State.mapEyes_lts (g : PerEye EyePort → PerEye EyePort) (s : State) : (s.mapEyes g).lts = s.lts := rfl

@[simp] theorem State.mapEyes_lme (g : PerEye EyePort → PerEye EyePort) (s : State) : (s.mapEyes g).lme = s.lme := rfl

@[simp] theorem State.mapEyes_pe (g : PerEye EyePort → PerEye EyePort) (s : State) : (s.mapEyes g).pe = s.pe := rfl

@[simp] theorem State.mapEyes_pq (g : PerEye EyePort → PerEye EyePort) (s : State) : (s.mapEyes g).pq = s.pq := rfl

@[simp] theorem State.mapEyes_rcp (g : PerEye EyePort → PerEye EyePort) (s : State) : (s.mapEyes g).rcp = s.rcp := rfl

@[simp] theorem State.mapEyes_resets (g : PerEye EyePort → PerEye EyePort) (s : State) :
    (s.mapEyes g).resets = s.resets := rfl

@[simp] theorem State.mapEyes_pending (g : PerEye EyePort → PerEye EyePort) (s : State) :
    (s.mapEyes g).pending = s.pending := rfl

/-! ## mapAe -/

@[simp] theorem State.mapAe_timebase (g : AgreementEngine → AgreementEngine) (s : State) :
    (s.mapAe g).timebase = s.timebase := rfl

@[simp] theorem State.mapAe_cg (g : AgreementEngine → AgreementEngine) (s : State) : (s.mapAe g).cg = s.cg := rfl

@[simp] theorem State.mapAe_eyes (g : AgreementEngine → AgreementEngine) (s : State) : (s.mapAe g).eyes = s.eyes := rfl

@[simp] theorem State.mapAe_ae (g : AgreementEngine → AgreementEngine) (s : State) : (s.mapAe g).ae = g s.ae := rfl

@[simp] theorem State.mapAe_tp (g : AgreementEngine → AgreementEngine) (s : State) : (s.mapAe g).tp = s.tp := rfl

@[simp] theorem State.mapAe_lts (g : AgreementEngine → AgreementEngine) (s : State) : (s.mapAe g).lts = s.lts := rfl

@[simp] theorem State.mapAe_lme (g : AgreementEngine → AgreementEngine) (s : State) : (s.mapAe g).lme = s.lme := rfl

@[simp] theorem State.mapAe_pe (g : AgreementEngine → AgreementEngine) (s : State) : (s.mapAe g).pe = s.pe := rfl

@[simp] theorem State.mapAe_pq (g : AgreementEngine → AgreementEngine) (s : State) : (s.mapAe g).pq = s.pq := rfl

@[simp] theorem State.mapAe_rcp (g : AgreementEngine → AgreementEngine) (s : State) : (s.mapAe g).rcp = s.rcp := rfl

@[simp] theorem State.mapAe_resets (g : AgreementEngine → AgreementEngine) (s : State) :
    (s.mapAe g).resets = s.resets := rfl

@[simp] theorem State.mapAe_pending (g : AgreementEngine → AgreementEngine) (s : State) :
    (s.mapAe g).pending = s.pending := rfl

/-! ## mapTp -/

@[simp] theorem State.mapTp_timebase (g : TriggerPlanner → TriggerPlanner) (s : State) :
    (s.mapTp g).timebase = s.timebase := rfl

@[simp] theorem State.mapTp_cg (g : TriggerPlanner → TriggerPlanner) (s : State) : (s.mapTp g).cg = s.cg := rfl

@[simp] theorem State.mapTp_eyes (g : TriggerPlanner → TriggerPlanner) (s : State) : (s.mapTp g).eyes = s.eyes := rfl

@[simp] theorem State.mapTp_ae (g : TriggerPlanner → TriggerPlanner) (s : State) : (s.mapTp g).ae = s.ae := rfl

@[simp] theorem State.mapTp_tp (g : TriggerPlanner → TriggerPlanner) (s : State) : (s.mapTp g).tp = g s.tp := rfl

@[simp] theorem State.mapTp_lts (g : TriggerPlanner → TriggerPlanner) (s : State) : (s.mapTp g).lts = s.lts := rfl

@[simp] theorem State.mapTp_lme (g : TriggerPlanner → TriggerPlanner) (s : State) : (s.mapTp g).lme = s.lme := rfl

@[simp] theorem State.mapTp_pe (g : TriggerPlanner → TriggerPlanner) (s : State) : (s.mapTp g).pe = s.pe := rfl

@[simp] theorem State.mapTp_pq (g : TriggerPlanner → TriggerPlanner) (s : State) : (s.mapTp g).pq = s.pq := rfl

@[simp] theorem State.mapTp_rcp (g : TriggerPlanner → TriggerPlanner) (s : State) : (s.mapTp g).rcp = s.rcp := rfl

@[simp] theorem State.mapTp_resets (g : TriggerPlanner → TriggerPlanner) (s : State) :
    (s.mapTp g).resets = s.resets := rfl

@[simp] theorem State.mapTp_pending (g : TriggerPlanner → TriggerPlanner) (s : State) :
    (s.mapTp g).pending = s.pending := rfl

/-! ## mapLts -/

@[simp] theorem State.mapLts_timebase (g : LensStore → LensStore) (s : State) :
    (s.mapLts g).timebase = s.timebase := rfl

@[simp] theorem State.mapLts_cg (g : LensStore → LensStore) (s : State) : (s.mapLts g).cg = s.cg := rfl

@[simp] theorem State.mapLts_eyes (g : LensStore → LensStore) (s : State) : (s.mapLts g).eyes = s.eyes := rfl

@[simp] theorem State.mapLts_ae (g : LensStore → LensStore) (s : State) : (s.mapLts g).ae = s.ae := rfl

@[simp] theorem State.mapLts_tp (g : LensStore → LensStore) (s : State) : (s.mapLts g).tp = s.tp := rfl

@[simp] theorem State.mapLts_lts (g : LensStore → LensStore) (s : State) : (s.mapLts g).lts = g s.lts := rfl

@[simp] theorem State.mapLts_lme (g : LensStore → LensStore) (s : State) : (s.mapLts g).lme = s.lme := rfl

@[simp] theorem State.mapLts_pe (g : LensStore → LensStore) (s : State) : (s.mapLts g).pe = s.pe := rfl

@[simp] theorem State.mapLts_pq (g : LensStore → LensStore) (s : State) : (s.mapLts g).pq = s.pq := rfl

@[simp] theorem State.mapLts_rcp (g : LensStore → LensStore) (s : State) : (s.mapLts g).rcp = s.rcp := rfl

@[simp] theorem State.mapLts_resets (g : LensStore → LensStore) (s : State) : (s.mapLts g).resets = s.resets := rfl

@[simp] theorem State.mapLts_pending (g : LensStore → LensStore) (s : State) : (s.mapLts g).pending = s.pending := rfl

/-! ## mapLme -/

@[simp] theorem State.mapLme_timebase (g : LensMatch → LensMatch) (s : State) :
    (s.mapLme g).timebase = s.timebase := rfl

@[simp] theorem State.mapLme_cg (g : LensMatch → LensMatch) (s : State) : (s.mapLme g).cg = s.cg := rfl

@[simp] theorem State.mapLme_eyes (g : LensMatch → LensMatch) (s : State) : (s.mapLme g).eyes = s.eyes := rfl

@[simp] theorem State.mapLme_ae (g : LensMatch → LensMatch) (s : State) : (s.mapLme g).ae = s.ae := rfl

@[simp] theorem State.mapLme_tp (g : LensMatch → LensMatch) (s : State) : (s.mapLme g).tp = s.tp := rfl

@[simp] theorem State.mapLme_lts (g : LensMatch → LensMatch) (s : State) : (s.mapLme g).lts = s.lts := rfl

@[simp] theorem State.mapLme_lme (g : LensMatch → LensMatch) (s : State) : (s.mapLme g).lme = g s.lme := rfl

@[simp] theorem State.mapLme_pe (g : LensMatch → LensMatch) (s : State) : (s.mapLme g).pe = s.pe := rfl

@[simp] theorem State.mapLme_pq (g : LensMatch → LensMatch) (s : State) : (s.mapLme g).pq = s.pq := rfl

@[simp] theorem State.mapLme_rcp (g : LensMatch → LensMatch) (s : State) : (s.mapLme g).rcp = s.rcp := rfl

@[simp] theorem State.mapLme_resets (g : LensMatch → LensMatch) (s : State) : (s.mapLme g).resets = s.resets := rfl

@[simp] theorem State.mapLme_pending (g : LensMatch → LensMatch) (s : State) : (s.mapLme g).pending = s.pending := rfl

/-! ## mapPe -/

@[simp] theorem State.mapPe_timebase (g : Pairing → Pairing) (s : State) : (s.mapPe g).timebase = s.timebase := rfl

@[simp] theorem State.mapPe_cg (g : Pairing → Pairing) (s : State) : (s.mapPe g).cg = s.cg := rfl

@[simp] theorem State.mapPe_eyes (g : Pairing → Pairing) (s : State) : (s.mapPe g).eyes = s.eyes := rfl

@[simp] theorem State.mapPe_ae (g : Pairing → Pairing) (s : State) : (s.mapPe g).ae = s.ae := rfl

@[simp] theorem State.mapPe_tp (g : Pairing → Pairing) (s : State) : (s.mapPe g).tp = s.tp := rfl

@[simp] theorem State.mapPe_lts (g : Pairing → Pairing) (s : State) : (s.mapPe g).lts = s.lts := rfl

@[simp] theorem State.mapPe_lme (g : Pairing → Pairing) (s : State) : (s.mapPe g).lme = s.lme := rfl

@[simp] theorem State.mapPe_pe (g : Pairing → Pairing) (s : State) : (s.mapPe g).pe = g s.pe := rfl

@[simp] theorem State.mapPe_pq (g : Pairing → Pairing) (s : State) : (s.mapPe g).pq = s.pq := rfl

@[simp] theorem State.mapPe_rcp (g : Pairing → Pairing) (s : State) : (s.mapPe g).rcp = s.rcp := rfl

@[simp] theorem State.mapPe_resets (g : Pairing → Pairing) (s : State) : (s.mapPe g).resets = s.resets := rfl

@[simp] theorem State.mapPe_pending (g : Pairing → Pairing) (s : State) : (s.mapPe g).pending = s.pending := rfl

/-! ## mapPq -/

@[simp] theorem State.mapPq_timebase (g : PairQueue → PairQueue) (s : State) : (s.mapPq g).timebase = s.timebase := rfl

@[simp] theorem State.mapPq_cg (g : PairQueue → PairQueue) (s : State) : (s.mapPq g).cg = s.cg := rfl

@[simp] theorem State.mapPq_eyes (g : PairQueue → PairQueue) (s : State) : (s.mapPq g).eyes = s.eyes := rfl

@[simp] theorem State.mapPq_ae (g : PairQueue → PairQueue) (s : State) : (s.mapPq g).ae = s.ae := rfl

@[simp] theorem State.mapPq_tp (g : PairQueue → PairQueue) (s : State) : (s.mapPq g).tp = s.tp := rfl

@[simp] theorem State.mapPq_lts (g : PairQueue → PairQueue) (s : State) : (s.mapPq g).lts = s.lts := rfl

@[simp] theorem State.mapPq_lme (g : PairQueue → PairQueue) (s : State) : (s.mapPq g).lme = s.lme := rfl

@[simp] theorem State.mapPq_pe (g : PairQueue → PairQueue) (s : State) : (s.mapPq g).pe = s.pe := rfl

@[simp] theorem State.mapPq_pq (g : PairQueue → PairQueue) (s : State) : (s.mapPq g).pq = g s.pq := rfl

@[simp] theorem State.mapPq_rcp (g : PairQueue → PairQueue) (s : State) : (s.mapPq g).rcp = s.rcp := rfl

@[simp] theorem State.mapPq_resets (g : PairQueue → PairQueue) (s : State) : (s.mapPq g).resets = s.resets := rfl

@[simp] theorem State.mapPq_pending (g : PairQueue → PairQueue) (s : State) : (s.mapPq g).pending = s.pending := rfl

/-! ## mapRcp -/

@[simp] theorem State.mapRcp_timebase (g : RigPort → RigPort) (s : State) : (s.mapRcp g).timebase = s.timebase := rfl

@[simp] theorem State.mapRcp_cg (g : RigPort → RigPort) (s : State) : (s.mapRcp g).cg = s.cg := rfl

@[simp] theorem State.mapRcp_eyes (g : RigPort → RigPort) (s : State) : (s.mapRcp g).eyes = s.eyes := rfl

@[simp] theorem State.mapRcp_ae (g : RigPort → RigPort) (s : State) : (s.mapRcp g).ae = s.ae := rfl

@[simp] theorem State.mapRcp_tp (g : RigPort → RigPort) (s : State) : (s.mapRcp g).tp = s.tp := rfl

@[simp] theorem State.mapRcp_lts (g : RigPort → RigPort) (s : State) : (s.mapRcp g).lts = s.lts := rfl

@[simp] theorem State.mapRcp_lme (g : RigPort → RigPort) (s : State) : (s.mapRcp g).lme = s.lme := rfl

@[simp] theorem State.mapRcp_pe (g : RigPort → RigPort) (s : State) : (s.mapRcp g).pe = s.pe := rfl

@[simp] theorem State.mapRcp_pq (g : RigPort → RigPort) (s : State) : (s.mapRcp g).pq = s.pq := rfl

@[simp] theorem State.mapRcp_rcp (g : RigPort → RigPort) (s : State) : (s.mapRcp g).rcp = g s.rcp := rfl

@[simp] theorem State.mapRcp_resets (g : RigPort → RigPort) (s : State) : (s.mapRcp g).resets = s.resets := rfl

@[simp] theorem State.mapRcp_pending (g : RigPort → RigPort) (s : State) : (s.mapRcp g).pending = s.pending := rfl

/-! ## mapResets -/

@[simp] theorem State.mapResets_timebase (g : Resets → Resets) (s : State) :
    (s.mapResets g).timebase = s.timebase := rfl

@[simp] theorem State.mapResets_cg (g : Resets → Resets) (s : State) : (s.mapResets g).cg = s.cg := rfl

@[simp] theorem State.mapResets_eyes (g : Resets → Resets) (s : State) : (s.mapResets g).eyes = s.eyes := rfl

@[simp] theorem State.mapResets_ae (g : Resets → Resets) (s : State) : (s.mapResets g).ae = s.ae := rfl

@[simp] theorem State.mapResets_tp (g : Resets → Resets) (s : State) : (s.mapResets g).tp = s.tp := rfl

@[simp] theorem State.mapResets_lts (g : Resets → Resets) (s : State) : (s.mapResets g).lts = s.lts := rfl

@[simp] theorem State.mapResets_lme (g : Resets → Resets) (s : State) : (s.mapResets g).lme = s.lme := rfl

@[simp] theorem State.mapResets_pe (g : Resets → Resets) (s : State) : (s.mapResets g).pe = s.pe := rfl

@[simp] theorem State.mapResets_pq (g : Resets → Resets) (s : State) : (s.mapResets g).pq = s.pq := rfl

@[simp] theorem State.mapResets_rcp (g : Resets → Resets) (s : State) : (s.mapResets g).rcp = s.rcp := rfl

@[simp] theorem State.mapResets_resets (g : Resets → Resets) (s : State) : (s.mapResets g).resets = g s.resets := rfl

@[simp] theorem State.mapResets_pending (g : Resets → Resets) (s : State) : (s.mapResets g).pending = s.pending := rfl

/-! ## mapEye -/

@[simp] theorem State.mapEye_timebase (e : Eye) (g : EyePort → EyePort) (s : State) :
    (s.mapEye e g).timebase = s.timebase := rfl

@[simp] theorem State.mapEye_cg (e : Eye) (g : EyePort → EyePort) (s : State) : (s.mapEye e g).cg = s.cg := rfl

@[simp] theorem State.mapEye_ae (e : Eye) (g : EyePort → EyePort) (s : State) : (s.mapEye e g).ae = s.ae := rfl

@[simp] theorem State.mapEye_tp (e : Eye) (g : EyePort → EyePort) (s : State) : (s.mapEye e g).tp = s.tp := rfl

@[simp] theorem State.mapEye_lts (e : Eye) (g : EyePort → EyePort) (s : State) : (s.mapEye e g).lts = s.lts := rfl

@[simp] theorem State.mapEye_lme (e : Eye) (g : EyePort → EyePort) (s : State) : (s.mapEye e g).lme = s.lme := rfl

@[simp] theorem State.mapEye_pe (e : Eye) (g : EyePort → EyePort) (s : State) : (s.mapEye e g).pe = s.pe := rfl

@[simp] theorem State.mapEye_pq (e : Eye) (g : EyePort → EyePort) (s : State) : (s.mapEye e g).pq = s.pq := rfl

@[simp] theorem State.mapEye_rcp (e : Eye) (g : EyePort → EyePort) (s : State) : (s.mapEye e g).rcp = s.rcp := rfl

@[simp] theorem State.mapEye_resets (e : Eye) (g : EyePort → EyePort) (s : State) :
    (s.mapEye e g).resets = s.resets := rfl

@[simp] theorem State.mapEye_pending (e : Eye) (g : EyePort → EyePort) (s : State) :
    (s.mapEye e g).pending = s.pending := rfl

@[simp] theorem State.mapEye_eyes (e : Eye) (g : EyePort → EyePort) (s : State) :
    (s.mapEye e g).eyes = s.eyes.set e (g (s.eyes.get e)) := rfl

@[simp] theorem State.mapEye_eye_same (e : Eye) (g : EyePort → EyePort) (s : State) :
    (s.mapEye e g).eye e = g (s.eye e) := by
  cases e <;> rfl

@[simp] theorem State.mapEye_eye_other (e : Eye) (g : EyePort → EyePort) (s : State) :
    (s.mapEye e g).eye e.other = s.eye e.other := by
  cases e <;> rfl

theorem State.eye_eq (s : State) (e : Eye) : s.eye e = s.eyes.get e := rfl

@[simp] theorem State.mapCg_eye (g : Cadence → Cadence) (s : State) (e : Eye) : (s.mapCg g).eye e = s.eye e := rfl

@[simp] theorem State.mapAe_eye (g : AgreementEngine → AgreementEngine) (s : State) (e : Eye) :
    (s.mapAe g).eye e = s.eye e := rfl

@[simp] theorem State.mapTp_eye (g : TriggerPlanner → TriggerPlanner) (s : State) (e : Eye) :
    (s.mapTp g).eye e = s.eye e := rfl

@[simp] theorem State.mapLts_eye (g : LensStore → LensStore) (s : State) (e : Eye) : (s.mapLts g).eye e = s.eye e := rfl

@[simp] theorem State.mapLme_eye (g : LensMatch → LensMatch) (s : State) (e : Eye) : (s.mapLme g).eye e = s.eye e := rfl

@[simp] theorem State.mapPe_eye (g : Pairing → Pairing) (s : State) (e : Eye) : (s.mapPe g).eye e = s.eye e := rfl

@[simp] theorem State.mapPq_eye (g : PairQueue → PairQueue) (s : State) (e : Eye) : (s.mapPq g).eye e = s.eye e := rfl

@[simp] theorem State.mapRcp_eye (g : RigPort → RigPort) (s : State) (e : Eye) : (s.mapRcp g).eye e = s.eye e := rfl

@[simp] theorem State.mapResets_eye (g : Resets → Resets) (s : State) (e : Eye) : (s.mapResets g).eye e = s.eye e := rfl

/-! ## raise -/

@[simp] theorem raise_timebase (n : Notice) (s : State) : (raise n s).timebase = s.timebase := rfl

@[simp] theorem raise_cg (n : Notice) (s : State) : (raise n s).cg = s.cg := rfl

@[simp] theorem raise_eyes (n : Notice) (s : State) : (raise n s).eyes = s.eyes := rfl

@[simp] theorem raise_ae (n : Notice) (s : State) : (raise n s).ae = s.ae := rfl

@[simp] theorem raise_tp (n : Notice) (s : State) : (raise n s).tp = s.tp := rfl

@[simp] theorem raise_lts (n : Notice) (s : State) : (raise n s).lts = s.lts := rfl

@[simp] theorem raise_lme (n : Notice) (s : State) : (raise n s).lme = s.lme := rfl

@[simp] theorem raise_pe (n : Notice) (s : State) : (raise n s).pe = s.pe := rfl

@[simp] theorem raise_pq (n : Notice) (s : State) : (raise n s).pq = s.pq := rfl

@[simp] theorem raise_resets (n : Notice) (s : State) : (raise n s).resets = s.resets := rfl

@[simp] theorem raise_pending (n : Notice) (s : State) : (raise n s).pending = s.pending := rfl

/-! ## writeDirective -/

@[simp] theorem writeDirective_timebase (e : Eye) (d : Directive) (s : State) :
    (writeDirective e d s).timebase = s.timebase := rfl

@[simp] theorem writeDirective_cg (e : Eye) (d : Directive) (s : State) : (writeDirective e d s).cg = s.cg := rfl

@[simp] theorem writeDirective_ae (e : Eye) (d : Directive) (s : State) : (writeDirective e d s).ae = s.ae := rfl

@[simp] theorem writeDirective_tp (e : Eye) (d : Directive) (s : State) : (writeDirective e d s).tp = s.tp := rfl

@[simp] theorem writeDirective_lts (e : Eye) (d : Directive) (s : State) : (writeDirective e d s).lts = s.lts := rfl

@[simp] theorem writeDirective_lme (e : Eye) (d : Directive) (s : State) : (writeDirective e d s).lme = s.lme := rfl

@[simp] theorem writeDirective_pe (e : Eye) (d : Directive) (s : State) : (writeDirective e d s).pe = s.pe := rfl

@[simp] theorem writeDirective_pq (e : Eye) (d : Directive) (s : State) : (writeDirective e d s).pq = s.pq := rfl

@[simp] theorem writeDirective_rcp (e : Eye) (d : Directive) (s : State) : (writeDirective e d s).rcp = s.rcp := rfl

@[simp] theorem writeDirective_resets (e : Eye) (d : Directive) (s : State) :
    (writeDirective e d s).resets = s.resets := rfl

@[simp] theorem writeDirective_pending (e : Eye) (d : Directive) (s : State) :
    (writeDirective e d s).pending = s.pending := rfl

/-! ## EyePort.countLost, EyePort.takeLost -/

/-- An increment leaves the port but for the count. -/
theorem EyePort.countLost_frame (p : EyePort) : p.countLost = { p with lost := p.countLost.lost } := rfl

@[simp] theorem EyePort.countLost_takenFull (p : EyePort) : p.countLost.takenFull = p.takenFull := rfl

/-- An increment after the take of a saturated count, in one instant, leaves 255 (R44). -/
theorem EyePort.countLost_lost_takenFull {p : EyePort} (h : p.takenFull = true) : p.countLost.lost = Config.lostMax := by
  simp [EyePort.countLost, h]

/-- Any other increment adds one, and stays at 255 (R44). -/
theorem EyePort.countLost_lost {p : EyePort} (h : p.takenFull = false) :
    p.countLost.lost = min (p.lost + 1) Config.lostMax := by
  simp [EyePort.countLost, h]

@[simp] theorem EyePort.takeLost_lost (p : EyePort) : p.takeLost.lost = 0 := rfl

@[simp] theorem EyePort.takeLost_takenFull (p : EyePort) :
    p.takeLost.takenFull = (p.takenFull || decide (Config.lostMax ≤ p.lost)) := rfl

/-! ## countLost -/

@[simp] theorem countLost_timebase (e : Eye) (s : State) : (countLost e s).timebase = s.timebase := rfl

@[simp] theorem countLost_cg (e : Eye) (s : State) : (countLost e s).cg = s.cg := rfl

@[simp] theorem countLost_ae (e : Eye) (s : State) : (countLost e s).ae = s.ae := rfl

@[simp] theorem countLost_tp (e : Eye) (s : State) : (countLost e s).tp = s.tp := rfl

@[simp] theorem countLost_lts (e : Eye) (s : State) : (countLost e s).lts = s.lts := rfl

@[simp] theorem countLost_lme (e : Eye) (s : State) : (countLost e s).lme = s.lme := rfl

@[simp] theorem countLost_pe (e : Eye) (s : State) : (countLost e s).pe = s.pe := rfl

@[simp] theorem countLost_pq (e : Eye) (s : State) : (countLost e s).pq = s.pq := rfl

@[simp] theorem countLost_rcp (e : Eye) (s : State) : (countLost e s).rcp = s.rcp := rfl

@[simp] theorem countLost_resets (e : Eye) (s : State) : (countLost e s).resets = s.resets := rfl

@[simp] theorem countLost_pending (e : Eye) (s : State) : (countLost e s).pending = s.pending := rfl

/-! ## respond -/

@[simp] theorem respond_timebase (kind : Byte) (code : ResponseCode) (body : List Byte) (s : State) :
    (respond kind code body s).timebase = s.timebase := rfl

@[simp] theorem respond_cg (kind : Byte) (code : ResponseCode) (body : List Byte) (s : State) :
    (respond kind code body s).cg = s.cg := rfl

@[simp] theorem respond_eyes (kind : Byte) (code : ResponseCode) (body : List Byte) (s : State) :
    (respond kind code body s).eyes = s.eyes := rfl

@[simp] theorem respond_ae (kind : Byte) (code : ResponseCode) (body : List Byte) (s : State) :
    (respond kind code body s).ae = s.ae := rfl

@[simp] theorem respond_tp (kind : Byte) (code : ResponseCode) (body : List Byte) (s : State) :
    (respond kind code body s).tp = s.tp := rfl

@[simp] theorem respond_lts (kind : Byte) (code : ResponseCode) (body : List Byte) (s : State) :
    (respond kind code body s).lts = s.lts := rfl

@[simp] theorem respond_lme (kind : Byte) (code : ResponseCode) (body : List Byte) (s : State) :
    (respond kind code body s).lme = s.lme := rfl

@[simp] theorem respond_pe (kind : Byte) (code : ResponseCode) (body : List Byte) (s : State) :
    (respond kind code body s).pe = s.pe := rfl

@[simp] theorem respond_pq (kind : Byte) (code : ResponseCode) (body : List Byte) (s : State) :
    (respond kind code body s).pq = s.pq := rfl

@[simp] theorem respond_resets (kind : Byte) (code : ResponseCode) (body : List Byte) (s : State) :
    (respond kind code body s).resets = s.resets := rfl

@[simp] theorem respond_pending (kind : Byte) (code : ResponseCode) (body : List Byte) (s : State) :
    (respond kind code body s).pending = s.pending := rfl

/-! ## answer -/

@[simp] theorem answer_timebase (kind : Byte) (code : ResponseCode) (s : State) :
    (answer kind code s).timebase = s.timebase := rfl

@[simp] theorem answer_cg (kind : Byte) (code : ResponseCode) (s : State) : (answer kind code s).cg = s.cg := rfl

@[simp] theorem answer_eyes (kind : Byte) (code : ResponseCode) (s : State) : (answer kind code s).eyes = s.eyes := rfl

@[simp] theorem answer_ae (kind : Byte) (code : ResponseCode) (s : State) : (answer kind code s).ae = s.ae := rfl

@[simp] theorem answer_tp (kind : Byte) (code : ResponseCode) (s : State) : (answer kind code s).tp = s.tp := rfl

@[simp] theorem answer_lts (kind : Byte) (code : ResponseCode) (s : State) : (answer kind code s).lts = s.lts := rfl

@[simp] theorem answer_lme (kind : Byte) (code : ResponseCode) (s : State) : (answer kind code s).lme = s.lme := rfl

@[simp] theorem answer_pe (kind : Byte) (code : ResponseCode) (s : State) : (answer kind code s).pe = s.pe := rfl

@[simp] theorem answer_pq (kind : Byte) (code : ResponseCode) (s : State) : (answer kind code s).pq = s.pq := rfl

@[simp] theorem answer_resets (kind : Byte) (code : ResponseCode) (s : State) :
    (answer kind code s).resets = s.resets := rfl

@[simp] theorem answer_pending (kind : Byte) (code : ResponseCode) (s : State) :
    (answer kind code s).pending = s.pending := rfl

/-! ## EyePort.advance -/

@[simp] theorem EyePort.advance_timer (n : Nat) (p : EyePort) : (p.advance n).timer = p.timer.advance n p.pres := rfl

@[simp] theorem EyePort.advance_lost (n : Nat) (p : EyePort) : (p.advance n).lost = p.lost := rfl

@[simp] theorem EyePort.advance_takenFull (n : Nat) (p : EyePort) :
    (p.advance n).takenFull = (decide (n = 0) && p.takenFull) := rfl

@[simp] theorem EyePort.advance_state (n : Nat) (p : EyePort) : (p.advance n).state = p.state := rfl

@[simp] theorem EyePort.advance_trig (n : Nat) (p : EyePort) : (p.advance n).trig = p.trig := rfl

/-! ## advance -/

@[simp] theorem advance_cg (n : Nat) (s : State) : (advance n s).cg = s.cg := rfl

@[simp] theorem advance_ae (n : Nat) (s : State) : (advance n s).ae = s.ae := rfl

@[simp] theorem advance_tp (n : Nat) (s : State) : (advance n s).tp = s.tp := rfl

@[simp] theorem advance_lts (n : Nat) (s : State) : (advance n s).lts = s.lts := rfl

@[simp] theorem advance_lme (n : Nat) (s : State) : (advance n s).lme = s.lme := rfl

@[simp] theorem advance_pe (n : Nat) (s : State) : (advance n s).pe = s.pe := rfl

@[simp] theorem advance_pq (n : Nat) (s : State) : (advance n s).pq = s.pq := rfl

@[simp] theorem advance_rcp (n : Nat) (s : State) : (advance n s).rcp = s.rcp := rfl

@[simp] theorem advance_pending (n : Nat) (s : State) : (advance n s).pending = s.pending := rfl

/-! ## waitUntil -/

@[simp] theorem waitUntil_cg (m : Time) (s : State) : (waitUntil m s).cg = s.cg := rfl

@[simp] theorem waitUntil_ae (m : Time) (s : State) : (waitUntil m s).ae = s.ae := rfl

@[simp] theorem waitUntil_tp (m : Time) (s : State) : (waitUntil m s).tp = s.tp := rfl

@[simp] theorem waitUntil_lts (m : Time) (s : State) : (waitUntil m s).lts = s.lts := rfl

@[simp] theorem waitUntil_lme (m : Time) (s : State) : (waitUntil m s).lme = s.lme := rfl

@[simp] theorem waitUntil_pe (m : Time) (s : State) : (waitUntil m s).pe = s.pe := rfl

@[simp] theorem waitUntil_pq (m : Time) (s : State) : (waitUntil m s).pq = s.pq := rfl

@[simp] theorem waitUntil_rcp (m : Time) (s : State) : (waitUntil m s).rcp = s.rcp := rfl

@[simp] theorem waitUntil_pending (m : Time) (s : State) : (waitUntil m s).pending = s.pending := rfl

/-! ## tick -/

@[simp] theorem tick_cg (s : State) : (tick s).cg = s.cg := rfl

@[simp] theorem tick_ae (s : State) : (tick s).ae = s.ae := rfl

@[simp] theorem tick_tp (s : State) : (tick s).tp = s.tp := rfl

@[simp] theorem tick_lts (s : State) : (tick s).lts = s.lts := rfl

@[simp] theorem tick_lme (s : State) : (tick s).lme = s.lme := rfl

@[simp] theorem tick_pe (s : State) : (tick s).pe = s.pe := rfl

@[simp] theorem tick_pq (s : State) : (tick s).pq = s.pq := rfl

@[simp] theorem tick_rcp (s : State) : (tick s).rcp = s.rcp := rfl

@[simp] theorem tick_pending (s : State) : (tick s).pending = s.pending := rfl

/-! ## The reset of the part -/

@[simp] theorem holdInReset_timebase (s : State) : (holdInReset s).timebase = 0 := rfl

@[simp] theorem holdInReset_cg (s : State) : (holdInReset s).cg = .atReset := rfl

@[simp] theorem holdInReset_eyes (s : State) :
    (holdInReset s).eyes = s.eyes.map fun p => .atReset p.pres p.selLow p.sent := rfl

@[simp] theorem holdInReset_ae (s : State) : (holdInReset s).ae = .atReset := rfl

@[simp] theorem holdInReset_tp (s : State) : (holdInReset s).tp = .atReset := rfl

@[simp] theorem holdInReset_lts (s : State) : (holdInReset s).lts = .atReset s.lts.nv := rfl

@[simp] theorem holdInReset_lme (s : State) : (holdInReset s).lme = .atReset := rfl

@[simp] theorem holdInReset_pe (s : State) : (holdInReset s).pe = .atReset := rfl

@[simp] theorem holdInReset_pq (s : State) : (holdInReset s).pq = .atReset s.pq.selLow s.pq.sent := rfl

@[simp] theorem holdInReset_rcp (s : State) : (holdInReset s).rcp = .atReset s.rcp.cause s.rcp.selLow s.rcp.sent := rfl

@[simp] theorem holdInReset_resets (s : State) : (holdInReset s).resets = s.resets := rfl

@[simp] theorem holdInReset_pending (s : State) : (holdInReset s).pending = s.pending := rfl

/-! ## Whether the part is held -/

theorem State.isHeld_eq (s : State) : s.isHeld = s.resets.inForce := rfl

@[simp] theorem State.mapCg_isHeld (g : Cadence → Cadence) (s : State) : (s.mapCg g).isHeld = s.isHeld := rfl

@[simp] theorem State.mapEyes_isHeld (g : PerEye EyePort → PerEye EyePort) (s : State) :
    (s.mapEyes g).isHeld = s.isHeld := rfl

@[simp] theorem State.mapAe_isHeld (g : AgreementEngine → AgreementEngine) (s : State) :
    (s.mapAe g).isHeld = s.isHeld := rfl

@[simp] theorem State.mapTp_isHeld (g : TriggerPlanner → TriggerPlanner) (s : State) :
    (s.mapTp g).isHeld = s.isHeld := rfl

@[simp] theorem State.mapLts_isHeld (g : LensStore → LensStore) (s : State) : (s.mapLts g).isHeld = s.isHeld := rfl

@[simp] theorem State.mapLme_isHeld (g : LensMatch → LensMatch) (s : State) : (s.mapLme g).isHeld = s.isHeld := rfl

@[simp] theorem State.mapPe_isHeld (g : Pairing → Pairing) (s : State) : (s.mapPe g).isHeld = s.isHeld := rfl

@[simp] theorem State.mapPq_isHeld (g : PairQueue → PairQueue) (s : State) : (s.mapPq g).isHeld = s.isHeld := rfl

@[simp] theorem State.mapRcp_isHeld (g : RigPort → RigPort) (s : State) : (s.mapRcp g).isHeld = s.isHeld := rfl

@[simp] theorem State.mapEye_isHeld (e : Eye) (g : EyePort → EyePort) (s : State) :
    (s.mapEye e g).isHeld = s.isHeld := rfl

@[simp] theorem Resets.advance_inForce (n : Nat) (r : Resets) : (r.advance n).inForce = r.inForce := by
  cases r with
  | mk p q z => cases p <;> cases z <;> rfl

/-- Ticks neither bring a reset into force nor lift one. -/
@[simp] theorem advance_isHeld (n : Nat) (s : State) : (advance n s).isHeld = s.isHeld :=
  Resets.advance_inForce n s.resets

end Sys2Proof.Machine
end

