-- ==== Sys2Proof/Laws/Frames.lean ====
section
/-! SUPPORT. The frame of every shared operation: the blocks it leaves unchanged, whatever the state. One lemma for each
operation, a conjunction that simp uses part by part. -/

namespace Sys2Proof.Machine

/-! ## Operations every block shares -/

@[simp] theorem setEyeState_frame (e : Eye) (st : EyeState) (s : State) :
    (setEyeState e st s).timebase = s.timebase ∧ (setEyeState e st s).cg = s.cg ∧ (setEyeState e st s).ae = s.ae ∧
    (setEyeState e st s).lts = s.lts ∧ (setEyeState e st s).lme = s.lme ∧ (setEyeState e st s).pe = s.pe ∧
    (setEyeState e st s).pq = s.pq ∧ (setEyeState e st s).rcp = s.rcp ∧ (setEyeState e st s).resets = s.resets ∧
    (setEyeState e st s).pending = s.pending := by
  unfold setEyeState; split <;> simp

@[simp] theorem waitEye_frame (e : Eye) (st : EyeState) (r : WaitReason) (s : State) :
    (waitEye e st r s).timebase = s.timebase ∧ (waitEye e st r s).cg = s.cg ∧ (waitEye e st r s).lts = s.lts ∧
    (waitEye e st r s).lme = s.lme ∧ (waitEye e st r s).pe = s.pe ∧ (waitEye e st r s).pq = s.pq ∧
    (waitEye e st r s).rcp = s.rcp ∧ (waitEye e st r s).resets = s.resets ∧ (waitEye e st r s).pending = s.pending := by
  simp [waitEye]

@[simp] theorem proposeEye_frame (e : Eye) (a : Agreement) (s : State) :
    (proposeEye e a s).timebase = s.timebase ∧ (proposeEye e a s).cg = s.cg ∧ (proposeEye e a s).ae = s.ae ∧
    (proposeEye e a s).lts = s.lts ∧ (proposeEye e a s).lme = s.lme ∧ (proposeEye e a s).pe = s.pe ∧
    (proposeEye e a s).pq = s.pq ∧ (proposeEye e a s).rcp = s.rcp ∧ (proposeEye e a s).resets = s.resets ∧
    (proposeEye e a s).pending = s.pending := by
  simp [proposeEye]

/-! ## Lens Match Engine and Lens Table Store -/

@[simp] theorem clearPrevious_frame (e : Eye) (s : State) :
    (clearPrevious e s).timebase = s.timebase ∧ (clearPrevious e s).cg = s.cg ∧ (clearPrevious e s).eyes = s.eyes ∧
    (clearPrevious e s).ae = s.ae ∧ (clearPrevious e s).tp = s.tp ∧ (clearPrevious e s).lts = s.lts ∧
    (clearPrevious e s).pe = s.pe ∧ (clearPrevious e s).pq = s.pq ∧ (clearPrevious e s).rcp = s.rcp ∧
    (clearPrevious e s).resets = s.resets ∧ (clearPrevious e s).pending = s.pending := by
  simp [clearPrevious]

@[simp] theorem clearPreviousIf_frame (c : Bool) (e : Eye) (s : State) :
    (clearPreviousIf c e s).timebase = s.timebase ∧ (clearPreviousIf c e s).cg = s.cg ∧
    (clearPreviousIf c e s).eyes = s.eyes ∧ (clearPreviousIf c e s).ae = s.ae ∧ (clearPreviousIf c e s).tp = s.tp ∧
    (clearPreviousIf c e s).lts = s.lts ∧ (clearPreviousIf c e s).pe = s.pe ∧ (clearPreviousIf c e s).pq = s.pq ∧
    (clearPreviousIf c e s).rcp = s.rcp ∧ (clearPreviousIf c e s).resets = s.resets ∧
    (clearPreviousIf c e s).pending = s.pending := by
  unfold clearPreviousIf; split <;> simp

@[simp] theorem evalBinding_frame (e : Eye) (s : State) :
    (evalBinding e s).timebase = s.timebase ∧ (evalBinding e s).cg = s.cg ∧ (evalBinding e s).eyes = s.eyes ∧
    (evalBinding e s).ae = s.ae ∧ (evalBinding e s).tp = s.tp ∧ (evalBinding e s).pe = s.pe ∧
    (evalBinding e s).pq = s.pq ∧ (evalBinding e s).rcp = s.rcp ∧ (evalBinding e s).resets = s.resets ∧
    (evalBinding e s).pending = s.pending := by
  unfold evalBinding; dsimp only; split <;> simp

@[simp] theorem evalBindings_frame (s : State) :
    (evalBindings s).timebase = s.timebase ∧ (evalBindings s).cg = s.cg ∧ (evalBindings s).eyes = s.eyes ∧
    (evalBindings s).ae = s.ae ∧ (evalBindings s).tp = s.tp ∧ (evalBindings s).pe = s.pe ∧
    (evalBindings s).pq = s.pq ∧ (evalBindings s).rcp = s.rcp ∧ (evalBindings s).resets = s.resets ∧
    (evalBindings s).pending = s.pending := by
  simp [evalBindings]

@[simp] theorem afterApply_frame (f : Nat → Bool) (b : PerEye (Option Nat)) (s : State) :
    (afterApply f b s).timebase = s.timebase ∧ (afterApply f b s).cg = s.cg ∧ (afterApply f b s).eyes = s.eyes ∧
    (afterApply f b s).ae = s.ae ∧ (afterApply f b s).tp = s.tp ∧ (afterApply f b s).pe = s.pe ∧
    (afterApply f b s).pq = s.pq ∧ (afterApply f b s).rcp = s.rcp ∧ (afterApply f b s).resets = s.resets ∧
    (afterApply f b s).pending = s.pending := by
  simp [afterApply]

@[simp] theorem applyOp_frame (k : Nat) (p : PendingOp) (s : State) :
    (applyOp k p s).timebase = s.timebase ∧ (applyOp k p s).cg = s.cg ∧ (applyOp k p s).eyes = s.eyes ∧
    (applyOp k p s).ae = s.ae ∧ (applyOp k p s).tp = s.tp ∧ (applyOp k p s).pe = s.pe ∧ (applyOp k p s).pq = s.pq ∧
    (applyOp k p s).rcp = s.rcp ∧ (applyOp k p s).resets = s.resets ∧ (applyOp k p s).pending = s.pending := by
  simp [applyOp]

@[simp] theorem applyPendingOps_frame (s : State) :
    (applyPendingOps s).timebase = s.timebase ∧ (applyPendingOps s).cg = s.cg ∧ (applyPendingOps s).eyes = s.eyes ∧
    (applyPendingOps s).ae = s.ae ∧ (applyPendingOps s).tp = s.tp ∧ (applyPendingOps s).pe = s.pe ∧
    (applyPendingOps s).pq = s.pq ∧ (applyPendingOps s).rcp = s.rcp ∧ (applyPendingOps s).resets = s.resets ∧
    (applyPendingOps s).pending = s.pending := by
  unfold applyPendingOps; split <;> simp

@[simp] theorem changeSlot_frame (k : Nat) (p : PendingOp) (s : State) :
    (changeSlot k p s).timebase = s.timebase ∧ (changeSlot k p s).cg = s.cg ∧ (changeSlot k p s).eyes = s.eyes ∧
    (changeSlot k p s).ae = s.ae ∧ (changeSlot k p s).tp = s.tp ∧ (changeSlot k p s).pe = s.pe ∧
    (changeSlot k p s).pq = s.pq ∧ (changeSlot k p s).rcp = s.rcp ∧ (changeSlot k p s).resets = s.resets ∧
    (changeSlot k p s).pending = s.pending := by
  unfold changeSlot; split <;> simp

@[simp] theorem finishLoad_frame (s : State) :
    (finishLoad s).timebase = s.timebase ∧ (finishLoad s).cg = s.cg ∧ (finishLoad s).eyes = s.eyes ∧
    (finishLoad s).ae = s.ae ∧ (finishLoad s).tp = s.tp ∧ (finishLoad s).pe = s.pe ∧ (finishLoad s).pq = s.pq ∧
    (finishLoad s).resets = s.resets ∧ (finishLoad s).pending = s.pending := by
  unfold finishLoad; dsimp only; split <;> simp

/-! ## Pair Queue -/

@[simp] theorem offer_frame (r : PairRecord) (s : State) :
    (offer r s).timebase = s.timebase ∧ (offer r s).cg = s.cg ∧ (offer r s).eyes = s.eyes ∧ (offer r s).ae = s.ae ∧
    (offer r s).tp = s.tp ∧ (offer r s).lts = s.lts ∧ (offer r s).lme = s.lme ∧ (offer r s).pe = s.pe ∧
    (offer r s).resets = s.resets ∧ (offer r s).pending = s.pending := by
  unfold offer; split <;> simp

@[simp] theorem pairStart_frame (n : Nat) (s : State) :
    (pairStart n s).timebase = s.timebase ∧ (pairStart n s).cg = s.cg ∧ (pairStart n s).eyes = s.eyes ∧
    (pairStart n s).ae = s.ae ∧ (pairStart n s).tp = s.tp ∧ (pairStart n s).lts = s.lts ∧ (pairStart n s).lme = s.lme ∧
    (pairStart n s).pe = s.pe ∧ (pairStart n s).rcp = s.rcp ∧ (pairStart n s).resets = s.resets ∧
    (pairStart n s).pending = s.pending := by
  unfold pairStart; split <;> simp

@[simp] theorem pairEnd_frame (n : Nat) (s : State) :
    (pairEnd n s).timebase = s.timebase ∧ (pairEnd n s).cg = s.cg ∧ (pairEnd n s).eyes = s.eyes ∧
    (pairEnd n s).ae = s.ae ∧ (pairEnd n s).tp = s.tp ∧ (pairEnd n s).lts = s.lts ∧ (pairEnd n s).lme = s.lme ∧
    (pairEnd n s).pe = s.pe ∧ (pairEnd n s).rcp = s.rcp ∧ (pairEnd n s).resets = s.resets ∧
    (pairEnd n s).pending = s.pending := by
  simp [pairEnd]

/-! ## Pairing Engine -/

@[simp] theorem forgetMark_frame (m : MarkNumber) (e : Eye) (s : State) :
    (forgetMark m e s).timebase = s.timebase ∧ (forgetMark m e s).cg = s.cg ∧ (forgetMark m e s).eyes = s.eyes ∧
    (forgetMark m e s).ae = s.ae ∧ (forgetMark m e s).lts = s.lts ∧ (forgetMark m e s).lme = s.lme ∧
    (forgetMark m e s).pq = s.pq ∧ (forgetMark m e s).rcp = s.rcp ∧ (forgetMark m e s).resets = s.resets ∧
    (forgetMark m e s).pending = s.pending := by
  simp [forgetMark]

@[simp] theorem takeLost_frame (s : State) :
    (takeLost s).timebase = s.timebase ∧ (takeLost s).cg = s.cg ∧ (takeLost s).ae = s.ae ∧ (takeLost s).tp = s.tp ∧
    (takeLost s).lts = s.lts ∧ (takeLost s).lme = s.lme ∧ (takeLost s).pe = s.pe ∧ (takeLost s).pq = s.pq ∧
    (takeLost s).rcp = s.rcp ∧ (takeLost s).resets = s.resets ∧ (takeLost s).pending = s.pending := by
  simp [takeLost]

@[simp] theorem retireSlot_frame (p : PairSlot) (s : State) :
    (retireSlot p s).timebase = s.timebase ∧ (retireSlot p s).cg = s.cg ∧ (retireSlot p s).ae = s.ae ∧
    (retireSlot p s).lts = s.lts ∧ (retireSlot p s).lme = s.lme ∧ (retireSlot p s).resets = s.resets ∧
    (retireSlot p s).pending = s.pending := by
  simp [retireSlot]

@[simp] theorem retireFrom_frame (l : List PairSlot) (s : State) :
    (retireFrom l s).timebase = s.timebase ∧ (retireFrom l s).cg = s.cg ∧ (retireFrom l s).ae = s.ae ∧
    (retireFrom l s).lts = s.lts ∧ (retireFrom l s).lme = s.lme ∧ (retireFrom l s).resets = s.resets ∧
    (retireFrom l s).pending = s.pending := by
  induction l generalizing s with
  | nil => simp [retireFrom]
  | cons a rest ih => rw [retireFrom]; split <;> simp [ih]

@[simp] theorem retire_frame (s : State) :
    (retire s).timebase = s.timebase ∧ (retire s).cg = s.cg ∧ (retire s).ae = s.ae ∧ (retire s).lts = s.lts ∧
    (retire s).lme = s.lme ∧ (retire s).resets = s.resets ∧ (retire s).pending = s.pending := by
  simp [retire]

@[simp] theorem forgetTimedOut_frame (d : Nat) (l : List PairSlot) (s : State) :
    (forgetTimedOut d l s).timebase = s.timebase ∧ (forgetTimedOut d l s).cg = s.cg ∧
    (forgetTimedOut d l s).eyes = s.eyes ∧ (forgetTimedOut d l s).ae = s.ae ∧ (forgetTimedOut d l s).lts = s.lts ∧
    (forgetTimedOut d l s).lme = s.lme ∧ (forgetTimedOut d l s).pq = s.pq ∧ (forgetTimedOut d l s).rcp = s.rcp ∧
    (forgetTimedOut d l s).resets = s.resets ∧ (forgetTimedOut d l s).pending = s.pending := by
  induction l generalizing s with
  | nil => simp [forgetTimedOut]
  | cons a rest ih => rw [forgetTimedOut]; split <;> simp [ih]

@[simp] theorem ageWindow_frame (s : State) :
    (ageWindow s).timebase = s.timebase ∧ (ageWindow s).cg = s.cg ∧ (ageWindow s).ae = s.ae ∧
    (ageWindow s).lts = s.lts ∧ (ageWindow s).lme = s.lme ∧ (ageWindow s).resets = s.resets ∧
    (ageWindow s).pending = s.pending := by
  simp [ageWindow]

@[simp] theorem mapSlotOf_frame (m : MarkNumber) (f : PairSlot → PairSlot) (s : State) :
    (mapSlotOf m f s).timebase = s.timebase ∧ (mapSlotOf m f s).cg = s.cg ∧ (mapSlotOf m f s).eyes = s.eyes ∧
    (mapSlotOf m f s).ae = s.ae ∧ (mapSlotOf m f s).tp = s.tp ∧ (mapSlotOf m f s).lts = s.lts ∧
    (mapSlotOf m f s).lme = s.lme ∧ (mapSlotOf m f s).pq = s.pq ∧ (mapSlotOf m f s).rcp = s.rcp ∧
    (mapSlotOf m f s).resets = s.resets ∧ (mapSlotOf m f s).pending = s.pending := by
  simp [mapSlotOf]

@[simp] theorem firePulse_frame (e : Eye) (p : Pulse) (s : State) :
    (firePulse e p s).timebase = s.timebase ∧ (firePulse e p s).cg = s.cg ∧ (firePulse e p s).ae = s.ae ∧
    (firePulse e p s).lts = s.lts ∧ (firePulse e p s).lme = s.lme ∧ (firePulse e p s).pq = s.pq ∧
    (firePulse e p s).rcp = s.rcp ∧ (firePulse e p s).resets = s.resets ∧ (firePulse e p s).pending = s.pending := by
  simp [firePulse]

@[simp] theorem matchFrame_frame (e : Eye) (f : RawFrame) (s : State) :
    (matchFrame e f s).timebase = s.timebase ∧ (matchFrame e f s).cg = s.cg ∧ (matchFrame e f s).ae = s.ae ∧
    (matchFrame e f s).lts = s.lts ∧ (matchFrame e f s).lme = s.lme ∧ (matchFrame e f s).resets = s.resets ∧
    (matchFrame e f s).pending = s.pending := by
  unfold matchFrame; split <;> simp

@[simp] theorem loseParts_frame (e : Eye) (s : State) :
    (loseParts e s).timebase = s.timebase ∧ (loseParts e s).cg = s.cg ∧ (loseParts e s).ae = s.ae ∧
    (loseParts e s).lts = s.lts ∧ (loseParts e s).lme = s.lme ∧ (loseParts e s).resets = s.resets ∧
    (loseParts e s).pending = s.pending := by
  simp [loseParts]

@[simp] theorem setRefStep_frame (m : MarkNumber) (s : State) :
    (setRefStep m s).timebase = s.timebase ∧ (setRefStep m s).cg = s.cg ∧ (setRefStep m s).eyes = s.eyes ∧
    (setRefStep m s).ae = s.ae ∧ (setRefStep m s).tp = s.tp ∧ (setRefStep m s).lts = s.lts ∧
    (setRefStep m s).lme = s.lme ∧ (setRefStep m s).pq = s.pq ∧ (setRefStep m s).rcp = s.rcp ∧
    (setRefStep m s).resets = s.resets ∧ (setRefStep m s).pending = s.pending := by
  simp [setRefStep]

/-! ## Trigger Planner -/

@[simp] theorem planStart_frame (s : State) :
    (planStart s).timebase = s.timebase ∧ (planStart s).eyes = s.eyes ∧ (planStart s).ae = s.ae ∧
    (planStart s).pe = s.pe ∧ (planStart s).pq = s.pq ∧ (planStart s).rcp = s.rcp ∧ (planStart s).resets = s.resets ∧
    (planStart s).pending = s.pending := by
  unfold planStart; dsimp only; split <;> simp

@[simp] theorem serveEye_frame (p : Plan) (e : Eye) (s : State) :
    (serveEye p e s).timebase = s.timebase ∧ (serveEye p e s).cg = s.cg ∧ (serveEye p e s).ae = s.ae ∧
    (serveEye p e s).tp = s.tp ∧ (serveEye p e s).lts = s.lts ∧ (serveEye p e s).pe = s.pe ∧
    (serveEye p e s).pq = s.pq ∧ (serveEye p e s).rcp = s.rcp ∧ (serveEye p e s).resets = s.resets ∧
    (serveEye p e s).pending = s.pending := by
  unfold serveEye; dsimp only; (repeat' split) <;> simp

@[simp] theorem completePlan_frame (s : State) :
    (completePlan s).timebase = s.timebase ∧ (completePlan s).cg = s.cg ∧ (completePlan s).ae = s.ae ∧
    (completePlan s).lts = s.lts ∧ (completePlan s).pe = s.pe ∧ (completePlan s).pq = s.pq ∧
    (completePlan s).rcp = s.rcp ∧ (completePlan s).resets = s.resets ∧ (completePlan s).pending = s.pending := by
  unfold completePlan; split <;> simp

@[simp] theorem openWindow_frame (p : PairSlot) (s : State) :
    (openWindow p s).timebase = s.timebase ∧ (openWindow p s).cg = s.cg ∧ (openWindow p s).ae = s.ae ∧
    (openWindow p s).lts = s.lts ∧ (openWindow p s).lme = s.lme ∧ (openWindow p s).resets = s.resets ∧
    (openWindow p s).pending = s.pending := by
  simp [openWindow]

@[simp] theorem joinEye_frame (p : Plan) (e : Eye) (s : State) :
    (joinEye p e s).timebase = s.timebase ∧ (joinEye p e s).cg = s.cg ∧ (joinEye p e s).ae = s.ae ∧
    (joinEye p e s).lts = s.lts ∧ (joinEye p e s).lme = s.lme ∧ (joinEye p e s).pe = s.pe ∧
    (joinEye p e s).pq = s.pq ∧ (joinEye p e s).rcp = s.rcp ∧ (joinEye p e s).resets = s.resets ∧
    (joinEye p e s).pending = s.pending := by
  unfold joinEye; split <;> simp

@[simp] theorem layPulse_frame (p : Plan) (e : Eye) (m : MarkNumber) (s : State) :
    (layPulse p e m s).timebase = s.timebase ∧ (layPulse p e m s).cg = s.cg ∧ (layPulse p e m s).ae = s.ae ∧
    (layPulse p e m s).lts = s.lts ∧ (layPulse p e m s).lme = s.lme ∧ (layPulse p e m s).pq = s.pq ∧
    (layPulse p e m s).rcp = s.rcp ∧ (layPulse p e m s).resets = s.resets ∧ (layPulse p e m s).pending = s.pending := by
  unfold layPulse; dsimp only; (repeat' split) <;> simp

@[simp] theorem departEye_frame (e : Eye) (s : State) :
    (departEye e s).timebase = s.timebase ∧ (departEye e s).cg = s.cg ∧ (departEye e s).ae = s.ae ∧
    (departEye e s).lts = s.lts ∧ (departEye e s).resets = s.resets ∧ (departEye e s).pending = s.pending := by
  simp [departEye]

@[simp] theorem discardPlan_frame (s : State) :
    (discardPlan s).timebase = s.timebase ∧ (discardPlan s).cg = s.cg ∧ (discardPlan s).eyes = s.eyes ∧
    (discardPlan s).ae = s.ae ∧ (discardPlan s).lts = s.lts ∧ (discardPlan s).lme = s.lme ∧
    (discardPlan s).pe = s.pe ∧ (discardPlan s).pq = s.pq ∧ (discardPlan s).rcp = s.rcp ∧
    (discardPlan s).resets = s.resets ∧ (discardPlan s).pending = s.pending := by
  simp [discardPlan]

/-! ## Cadence Generator -/

@[simp] theorem stopRunning_frame (e : Eye) (s : State) :
    (stopRunning e s).timebase = s.timebase ∧ (stopRunning e s).cg = s.cg ∧ (stopRunning e s).ae = s.ae ∧
    (stopRunning e s).lts = s.lts ∧ (stopRunning e s).lme = s.lme ∧ (stopRunning e s).pe = s.pe ∧
    (stopRunning e s).pq = s.pq ∧ (stopRunning e s).rcp = s.rcp ∧ (stopRunning e s).resets = s.resets ∧
    (stopRunning e s).pending = s.pending := by
  unfold stopRunning; split <;> simp

@[simp] theorem rewriteOwed_frame (e : Eye) (s : State) :
    (rewriteOwed e s).timebase = s.timebase ∧ (rewriteOwed e s).cg = s.cg ∧ (rewriteOwed e s).ae = s.ae ∧
    (rewriteOwed e s).tp = s.tp ∧ (rewriteOwed e s).lts = s.lts ∧ (rewriteOwed e s).lme = s.lme ∧
    (rewriteOwed e s).pe = s.pe ∧ (rewriteOwed e s).pq = s.pq ∧ (rewriteOwed e s).rcp = s.rcp ∧
    (rewriteOwed e s).resets = s.resets ∧ (rewriteOwed e s).pending = s.pending := by
  unfold rewriteOwed; (repeat' split) <;> simp

@[simp] theorem enterDraining_frame (s : State) :
    (enterDraining s).timebase = s.timebase ∧ (enterDraining s).ae = s.ae ∧ (enterDraining s).pe = s.pe ∧
    (enterDraining s).pq = s.pq ∧ (enterDraining s).rcp = s.rcp ∧ (enterDraining s).resets = s.resets ∧
    (enterDraining s).pending = s.pending := by
  simp [enterDraining]

@[simp] theorem testLoss_frame (e : Eye) (s : State) :
    (testLoss e s).timebase = s.timebase ∧ (testLoss e s).ae = s.ae ∧ (testLoss e s).pe = s.pe ∧
    (testLoss e s).pq = s.pq ∧ (testLoss e s).rcp = s.rcp ∧ (testLoss e s).resets = s.resets ∧
    (testLoss e s).pending = s.pending := by
  unfold testLoss; split <;> simp

@[simp] theorem attributeEdge_frame (w : RefWindow) (p : Nat) (s : State) :
    (attributeEdge w p s).timebase = s.timebase ∧ (attributeEdge w p s).eyes = s.eyes ∧
    (attributeEdge w p s).ae = s.ae ∧ (attributeEdge w p s).tp = s.tp ∧ (attributeEdge w p s).lts = s.lts ∧
    (attributeEdge w p s).lme = s.lme ∧ (attributeEdge w p s).pq = s.pq ∧ (attributeEdge w p s).resets = s.resets ∧
    (attributeEdge w p s).pending = s.pending := by
  unfold attributeEdge; dsimp only; (repeat' split) <;> simp

@[simp] theorem refEdge_frame (s : State) :
    (refEdge s).timebase = s.timebase ∧ (refEdge s).eyes = s.eyes ∧ (refEdge s).ae = s.ae ∧ (refEdge s).tp = s.tp ∧
    (refEdge s).lts = s.lts ∧ (refEdge s).lme = s.lme ∧ (refEdge s).pq = s.pq ∧ (refEdge s).resets = s.resets ∧
    (refEdge s).pending = s.pending := by
  unfold refEdge; (repeat' split) <;> simp

@[simp] theorem closeRefWindow_frame (w : RefWindow) (p : Nat) (s : State) :
    (closeRefWindow w p s).ae = s.ae ∧ (closeRefWindow w p s).tp = s.tp ∧ (closeRefWindow w p s).lts = s.lts ∧
    (closeRefWindow w p s).lme = s.lme ∧ (closeRefWindow w p s).pe = s.pe ∧ (closeRefWindow w p s).pq = s.pq ∧
    (closeRefWindow w p s).pending = s.pending := by
  unfold closeRefWindow; dsimp only; split <;> simp

@[simp] theorem rollMark_frame (m : Time) (p : Plan) (s : State) :
    (rollMark m p s).timebase = s.timebase ∧ (rollMark m p s).ae = s.ae ∧ (rollMark m p s).resets = s.resets ∧
    (rollMark m p s).pending = s.pending := by
  simp [rollMark]

@[simp] theorem rollingMarkEvent_frame (m : Time) (s : State) :
    (rollingMarkEvent m s).ae = s.ae ∧ (rollingMarkEvent m s).pending = s.pending := by
  unfold rollingMarkEvent; dsimp only; split <;> simp

@[simp] theorem leadMarkEvent_frame (m : Time) (s : State) :
    (leadMarkEvent m s).ae = s.ae ∧ (leadMarkEvent m s).pe = s.pe ∧ (leadMarkEvent m s).pq = s.pq ∧
    (leadMarkEvent m s).rcp = s.rcp ∧ (leadMarkEvent m s).pending = s.pending := by
  simp [leadMarkEvent]

@[simp] theorem setupMarkEvent_frame (m : Time) (s : State) :
    (setupMarkEvent m s).ae = s.ae ∧ (setupMarkEvent m s).tp = s.tp ∧ (setupMarkEvent m s).lts = s.lts ∧
    (setupMarkEvent m s).lme = s.lme ∧ (setupMarkEvent m s).pe = s.pe ∧ (setupMarkEvent m s).pq = s.pq ∧
    (setupMarkEvent m s).rcp = s.rcp ∧ (setupMarkEvent m s).pending = s.pending := by
  simp [setupMarkEvent]

/-! ## Agreement Engine -/

@[simp] theorem setAgreement_frame (a : Option Agreement) (s : State) :
    (setAgreement a s).timebase = s.timebase ∧ (setAgreement a s).cg = s.cg ∧ (setAgreement a s).eyes = s.eyes ∧
    (setAgreement a s).tp = s.tp ∧ (setAgreement a s).lts = s.lts ∧ (setAgreement a s).lme = s.lme ∧
    (setAgreement a s).pe = s.pe ∧ (setAgreement a s).pq = s.pq ∧ (setAgreement a s).rcp = s.rcp ∧
    (setAgreement a s).resets = s.resets ∧ (setAgreement a s).pending = s.pending := by
  simp [setAgreement]

@[simp] theorem placeEqual_frame (c : Option Eye) (a : Agreement) (e : Eye) (s : State) :
    (placeEqual c a e s).timebase = s.timebase ∧ (placeEqual c a e s).cg = s.cg ∧ (placeEqual c a e s).ae = s.ae ∧
    (placeEqual c a e s).lts = s.lts ∧ (placeEqual c a e s).lme = s.lme ∧ (placeEqual c a e s).pe = s.pe ∧
    (placeEqual c a e s).pq = s.pq ∧ (placeEqual c a e s).rcp = s.rcp ∧ (placeEqual c a e s).resets = s.resets ∧
    (placeEqual c a e s).pending = s.pending := by
  unfold placeEqual; (repeat' split) <;> simp

@[simp] theorem placeChoice_frame (c : Option Eye) (o : Option Agreement) (s : State) :
    (placeChoice c o s).timebase = s.timebase ∧ (placeChoice c o s).cg = s.cg ∧ (placeChoice c o s).lts = s.lts ∧
    (placeChoice c o s).lme = s.lme ∧ (placeChoice c o s).pe = s.pe ∧ (placeChoice c o s).pq = s.pq ∧
    (placeChoice c o s).resets = s.resets ∧ (placeChoice c o s).pending = s.pending := by
  unfold placeChoice; dsimp only; (repeat' split) <;> simp

@[simp] theorem awaitPeer_frame (e : Eye) (s : State) :
    (awaitPeer e s).timebase = s.timebase ∧ (awaitPeer e s).cg = s.cg ∧ (awaitPeer e s).lts = s.lts ∧
    (awaitPeer e s).lme = s.lme ∧ (awaitPeer e s).pe = s.pe ∧ (awaitPeer e s).pq = s.pq ∧
    (awaitPeer e s).rcp = s.rcp ∧ (awaitPeer e s).resets = s.resets ∧ (awaitPeer e s).pending = s.pending := by
  simp [awaitPeer]

@[simp] theorem runChoice_frame (c : Option Eye) (s : State) :
    (runChoice c s).timebase = s.timebase ∧ (runChoice c s).cg = s.cg ∧ (runChoice c s).lts = s.lts ∧
    (runChoice c s).lme = s.lme ∧ (runChoice c s).pe = s.pe ∧ (runChoice c s).pq = s.pq ∧
    (runChoice c s).resets = s.resets ∧ (runChoice c s).pending = s.pending := by
  unfold runChoice; split <;> simp

@[simp] theorem clearExclusion_frame (s : State) :
    (clearExclusion s).timebase = s.timebase ∧ (clearExclusion s).cg = s.cg ∧ (clearExclusion s).eyes = s.eyes ∧
    (clearExclusion s).tp = s.tp ∧ (clearExclusion s).lts = s.lts ∧ (clearExclusion s).lme = s.lme ∧
    (clearExclusion s).pe = s.pe ∧ (clearExclusion s).pq = s.pq ∧ (clearExclusion s).rcp = s.rcp ∧
    (clearExclusion s).resets = s.resets ∧ (clearExclusion s).pending = s.pending := by
  simp [clearExclusion]

@[simp] theorem holdCaps_frame (e : Eye) (c : Option Caps) (s : State) :
    (holdCaps e c s).timebase = s.timebase ∧ (holdCaps e c s).cg = s.cg ∧ (holdCaps e c s).ae = s.ae ∧
    (holdCaps e c s).tp = s.tp ∧ (holdCaps e c s).pe = s.pe ∧ (holdCaps e c s).pq = s.pq ∧
    (holdCaps e c s).rcp = s.rcp ∧ (holdCaps e c s).resets = s.resets ∧ (holdCaps e c s).pending = s.pending := by
  simp [holdCaps]

@[simp] theorem forgetReadout_frame (e : Eye) (s : State) :
    (forgetReadout e s).timebase = s.timebase ∧ (forgetReadout e s).cg = s.cg ∧ (forgetReadout e s).eyes = s.eyes ∧
    (forgetReadout e s).ae = s.ae ∧ (forgetReadout e s).lts = s.lts ∧ (forgetReadout e s).lme = s.lme ∧
    (forgetReadout e s).pe = s.pe ∧ (forgetReadout e s).pq = s.pq ∧ (forgetReadout e s).rcp = s.rcp ∧
    (forgetReadout e s).resets = s.resets ∧ (forgetReadout e s).pending = s.pending := by
  simp [forgetReadout]

@[simp] theorem validCapsSetup_frame (e : Eye) (c : Caps) (s : State) :
    (validCapsSetup e c s).timebase = s.timebase ∧ (validCapsSetup e c s).cg = s.cg ∧
    (validCapsSetup e c s).pe = s.pe ∧ (validCapsSetup e c s).pq = s.pq ∧ (validCapsSetup e c s).resets = s.resets ∧
    (validCapsSetup e c s).pending = s.pending := by
  unfold validCapsSetup; dsimp only; split <;> simp

@[simp] theorem rejoinTest_frame (e : Eye) (c : Caps) (s : State) :
    (rejoinTest e c s).timebase = s.timebase ∧ (rejoinTest e c s).cg = s.cg ∧ (rejoinTest e c s).lts = s.lts ∧
    (rejoinTest e c s).lme = s.lme ∧ (rejoinTest e c s).pe = s.pe ∧ (rejoinTest e c s).pq = s.pq ∧
    (rejoinTest e c s).rcp = s.rcp ∧ (rejoinTest e c s).resets = s.resets ∧ (rejoinTest e c s).pending = s.pending := by
  unfold rejoinTest; dsimp only; (repeat' split) <;> simp

@[simp] theorem leaveTake_frame (e : Eye) (s : State) :
    (leaveTake e s).timebase = s.timebase ∧ (leaveTake e s).ae = s.ae ∧ (leaveTake e s).pe = s.pe ∧
    (leaveTake e s).pq = s.pq ∧ (leaveTake e s).resets = s.resets ∧ (leaveTake e s).pending = s.pending := by
  simp [leaveTake]

@[simp] theorem validCapsTake_frame (e : Eye) (c : Caps) (s : State) :
    (validCapsTake e c s).timebase = s.timebase ∧ (validCapsTake e c s).resets = s.resets ∧
    (validCapsTake e c s).pending = s.pending := by
  unfold validCapsTake; dsimp only; split <;> simp

@[simp] theorem partnerWaits_frame (e : Eye) (s : State) :
    (partnerWaits e s).timebase = s.timebase ∧ (partnerWaits e s).cg = s.cg ∧ (partnerWaits e s).lts = s.lts ∧
    (partnerWaits e s).lme = s.lme ∧ (partnerWaits e s).pe = s.pe ∧ (partnerWaits e s).pq = s.pq ∧
    (partnerWaits e s).rcp = s.rcp ∧ (partnerWaits e s).resets = s.resets ∧ (partnerWaits e s).pending = s.pending := by
  unfold partnerWaits; (repeat' split) <;> simp

@[simp] theorem invalidCaps_frame (e : Eye) (s : State) :
    (invalidCaps e s).timebase = s.timebase ∧ (invalidCaps e s).resets = s.resets ∧
    (invalidCaps e s).pending = s.pending := by
  unfold invalidCaps; dsimp only; (repeat' split) <;> simp

@[simp] theorem takeCaps_frame (e : Eye) (c : RawCaps) (s : State) :
    (takeCaps e c s).timebase = s.timebase ∧ (takeCaps e c s).resets = s.resets ∧ (takeCaps e c s).pending = s.pending := by
  unfold takeCaps; (repeat' split) <;> simp

@[simp] theorem takeAccept_frame (e : Eye) (b : Byte) (s : State) :
    (takeAccept e b s).timebase = s.timebase ∧ (takeAccept e b s).cg = s.cg ∧ (takeAccept e b s).ae = s.ae ∧
    (takeAccept e b s).lts = s.lts ∧ (takeAccept e b s).lme = s.lme ∧ (takeAccept e b s).pe = s.pe ∧
    (takeAccept e b s).pq = s.pq ∧ (takeAccept e b s).rcp = s.rcp ∧ (takeAccept e b s).resets = s.resets ∧
    (takeAccept e b s).pending = s.pending := by
  unfold takeAccept; split <;> simp

@[simp] theorem excludePair_frame (a : Agreement) (s : State) :
    (excludePair a s).timebase = s.timebase ∧ (excludePair a s).cg = s.cg ∧ (excludePair a s).eyes = s.eyes ∧
    (excludePair a s).tp = s.tp ∧ (excludePair a s).lts = s.lts ∧ (excludePair a s).lme = s.lme ∧
    (excludePair a s).pe = s.pe ∧ (excludePair a s).pq = s.pq ∧ (excludePair a s).rcp = s.rcp ∧
    (excludePair a s).resets = s.resets ∧ (excludePair a s).pending = s.pending := by
  simp [excludePair]

@[simp] theorem takeRefuse_frame (e : Eye) (b : Byte) (s : State) :
    (takeRefuse e b s).timebase = s.timebase ∧ (takeRefuse e b s).cg = s.cg ∧ (takeRefuse e b s).lts = s.lts ∧
    (takeRefuse e b s).lme = s.lme ∧ (takeRefuse e b s).pe = s.pe ∧ (takeRefuse e b s).pq = s.pq ∧
    (takeRefuse e b s).resets = s.resets ∧ (takeRefuse e b s).pending = s.pending := by
  unfold takeRefuse; (repeat' split) <;> simp

@[simp] theorem agreementAfterLeave_frame (e : Eye) (s : State) :
    (agreementAfterLeave e s).timebase = s.timebase ∧ (agreementAfterLeave e s).cg = s.cg ∧
    (agreementAfterLeave e s).lts = s.lts ∧ (agreementAfterLeave e s).lme = s.lme ∧
    (agreementAfterLeave e s).pe = s.pe ∧ (agreementAfterLeave e s).pq = s.pq ∧
    (agreementAfterLeave e s).rcp = s.rcp ∧ (agreementAfterLeave e s).resets = s.resets ∧
    (agreementAfterLeave e s).pending = s.pending := by
  unfold agreementAfterLeave; dsimp only; (repeat' split) <;> simp

@[simp] theorem leaveAttached_frame (e : Eye) (s : State) :
    (leaveAttached e s).timebase = s.timebase ∧ (leaveAttached e s).resets = s.resets ∧
    (leaveAttached e s).pending = s.pending := by
  unfold leaveAttached; dsimp only; split <;> simp

@[simp] theorem returnChoice_frame (s : State) :
    (returnChoice s).timebase = s.timebase ∧ (returnChoice s).cg = s.cg ∧ (returnChoice s).lts = s.lts ∧
    (returnChoice s).lme = s.lme ∧ (returnChoice s).pe = s.pe ∧ (returnChoice s).pq = s.pq ∧
    (returnChoice s).resets = s.resets ∧ (returnChoice s).pending = s.pending := by
  unfold returnChoice; dsimp only; split <;> simp

@[simp] theorem drainMarkEvent_frame (m : Time) (s : State) :
    (drainMarkEvent m s).lts = s.lts ∧ (drainMarkEvent m s).lme = s.lme ∧ (drainMarkEvent m s).pending = s.pending := by
  unfold drainMarkEvent; dsimp only; split <;> simp

/-! ## Ports -/

@[simp] theorem eyeStart_frame (e : Eye) (n : Nat) (s : State) :
    (eyeStart e n s).timebase = s.timebase ∧ (eyeStart e n s).cg = s.cg ∧ (eyeStart e n s).ae = s.ae ∧
    (eyeStart e n s).tp = s.tp ∧ (eyeStart e n s).lts = s.lts ∧ (eyeStart e n s).lme = s.lme ∧ (eyeStart e n s).pe = s.pe ∧
    (eyeStart e n s).pq = s.pq ∧ (eyeStart e n s).rcp = s.rcp ∧ (eyeStart e n s).resets = s.resets ∧
    (eyeStart e n s).pending = s.pending := by
  unfold eyeStart; (repeat' split) <;> simp

@[simp] theorem placeReport_frame (e : Eye) (r : Option Report) (s : State) :
    (placeReport e r s).timebase = s.timebase ∧ (placeReport e r s).cg = s.cg ∧ (placeReport e r s).ae = s.ae ∧
    (placeReport e r s).tp = s.tp ∧ (placeReport e r s).lts = s.lts ∧ (placeReport e r s).lme = s.lme ∧
    (placeReport e r s).pe = s.pe ∧ (placeReport e r s).pq = s.pq ∧ (placeReport e r s).rcp = s.rcp ∧
    (placeReport e r s).resets = s.resets ∧ (placeReport e r s).pending = s.pending := by
  unfold placeReport; (repeat' split) <;> simp

@[simp] theorem eyeEnd_frame (e : Eye) (n : Nat) (r : Option Report) (s : State) :
    (eyeEnd e n r s).timebase = s.timebase ∧ (eyeEnd e n r s).cg = s.cg ∧ (eyeEnd e n r s).ae = s.ae ∧
    (eyeEnd e n r s).tp = s.tp ∧ (eyeEnd e n r s).lts = s.lts ∧ (eyeEnd e n r s).lme = s.lme ∧
    (eyeEnd e n r s).pe = s.pe ∧ (eyeEnd e n r s).pq = s.pq ∧ (eyeEnd e n r s).rcp = s.rcp ∧
    (eyeEnd e n r s).resets = s.resets ∧ (eyeEnd e n r s).pending = s.pending := by
  unfold eyeEnd; dsimp only; (repeat' split) <;> simp

@[simp] theorem eyeReport_frame (e : Eye) (r : Report) (n : Nat) (s : State) :
    (eyeReport e r n s).timebase = s.timebase ∧ (eyeReport e r n s).cg = s.cg ∧ (eyeReport e r n s).ae = s.ae ∧
    (eyeReport e r n s).tp = s.tp ∧ (eyeReport e r n s).lts = s.lts ∧ (eyeReport e r n s).lme = s.lme ∧
    (eyeReport e r n s).pe = s.pe ∧ (eyeReport e r n s).pq = s.pq ∧ (eyeReport e r n s).rcp = s.rcp ∧
    (eyeReport e r n s).resets = s.resets ∧ (eyeReport e r n s).pending = s.pending := by
  simp [eyeReport]

@[simp] theorem rcpStart_frame (n : Nat) (s : State) :
    (rcpStart n s).timebase = s.timebase ∧ (rcpStart n s).cg = s.cg ∧ (rcpStart n s).eyes = s.eyes ∧
    (rcpStart n s).ae = s.ae ∧ (rcpStart n s).tp = s.tp ∧ (rcpStart n s).lts = s.lts ∧ (rcpStart n s).lme = s.lme ∧
    (rcpStart n s).pe = s.pe ∧ (rcpStart n s).pq = s.pq ∧ (rcpStart n s).resets = s.resets ∧
    (rcpStart n s).pending = s.pending := by
  unfold rcpStart; split <;> simp

@[simp] theorem enablePort_frame (e : Eye) (s : State) :
    (enablePort e s).timebase = s.timebase ∧ (enablePort e s).cg = s.cg ∧ (enablePort e s).ae = s.ae ∧
    (enablePort e s).tp = s.tp ∧ (enablePort e s).lts = s.lts ∧ (enablePort e s).lme = s.lme ∧
    (enablePort e s).pe = s.pe ∧ (enablePort e s).pq = s.pq ∧ (enablePort e s).rcp = s.rcp ∧
    (enablePort e s).resets = s.resets ∧ (enablePort e s).pending = s.pending := by
  unfold enablePort; split <;> simp

@[simp] theorem disablePort_frame (e : Eye) (s : State) :
    (disablePort e s).timebase = s.timebase ∧ (disablePort e s).resets = s.resets ∧
    (disablePort e s).pending = s.pending := by
  unfold disablePort; dsimp only; (repeat' split) <;> simp

@[simp] theorem settleEye_frame (e : Eye) (s : State) :
    (settleEye e s).timebase = s.timebase ∧ (settleEye e s).cg = s.cg ∧ (settleEye e s).lts = s.lts ∧
    (settleEye e s).lme = s.lme ∧ (settleEye e s).pe = s.pe ∧ (settleEye e s).pq = s.pq ∧
    (settleEye e s).resets = s.resets ∧ (settleEye e s).pending = s.pending := by
  simp [settleEye]

@[simp] theorem emptySlot_frame (e : Eye) (s : State) :
    (emptySlot e s).timebase = s.timebase ∧ (emptySlot e s).cg = s.cg ∧ (emptySlot e s).ae = s.ae ∧
    (emptySlot e s).tp = s.tp ∧ (emptySlot e s).lts = s.lts ∧ (emptySlot e s).lme = s.lme ∧
    (emptySlot e s).pe = s.pe ∧ (emptySlot e s).pq = s.pq ∧ (emptySlot e s).rcp = s.rcp ∧
    (emptySlot e s).resets = s.resets ∧ (emptySlot e s).pending = s.pending := by
  simp [emptySlot]

/-! ## Requests -/

@[simp] theorem startTake_frame (s : State) :
    (startTake s).timebase = s.timebase ∧ (startTake s).eyes = s.eyes ∧ (startTake s).ae = s.ae ∧
    (startTake s).pe = s.pe ∧ (startTake s).pq = s.pq ∧ (startTake s).rcp = s.rcp ∧ (startTake s).resets = s.resets ∧
    (startTake s).pending = s.pending := by
  unfold startTake; dsimp only; split <;> simp

@[simp] theorem completeSave_frame (s : State) :
    (completeSave s).cg = s.cg ∧ (completeSave s).ae = s.ae ∧ (completeSave s).tp = s.tp ∧
    (completeSave s).lme = s.lme ∧ (completeSave s).pe = s.pe ∧ (completeSave s).pq = s.pq ∧
    (completeSave s).pending = s.pending := by
  unfold completeSave; split <;> simp

@[simp] theorem completeLoad_frame (s : State) :
    (completeLoad s).timebase = s.timebase ∧ (completeLoad s).cg = s.cg ∧ (completeLoad s).eyes = s.eyes ∧
    (completeLoad s).ae = s.ae ∧ (completeLoad s).tp = s.tp ∧ (completeLoad s).pe = s.pe ∧
    (completeLoad s).pq = s.pq ∧ (completeLoad s).resets = s.resets ∧ (completeLoad s).pending = s.pending := by
  unfold completeLoad; split <;> simp

end Sys2Proof.Machine
end

