-- ==== Sys2Proof/Laws/Pulses.lean ====
section
/-! SUPPORT. Which scheduled pulse of an eye fires next (R85, R86). -/

namespace Sys2Proof.Machine

@[simp] theorem earliestPulse_nil (now : Time) : earliestPulse now [] = none := rfl

/-- Any pulse scheduled is one that can fire. -/
theorem earliestPulse_eq_none (now : Time) (l : List Pulse) : earliestPulse now l = none ↔ l = [] := by
  cases l with
  | nil => simp
  | cons p rest =>
    simp only [earliestPulse]
    split
    · simp
    · split <;> simp

/-- The pulse due first stands before none that is due earlier, and after none that is not due later. -/
theorem earliestPulse_eq_some (now : Time) (l : List Pulse) (p : Pulse) :
    earliestPulse now l = some p ↔ ∃ before rest, l = before ++ p :: rest ∧
      (∀ q ∈ before, timeDiff p.time now < timeDiff q.time now) ∧
      ∀ q ∈ rest, timeDiff p.time now ≤ timeDiff q.time now := by
  induction l generalizing p with
  | nil => simp
  | cons x l ih =>
    have least : ∀ q, earliestPulse now l = some q → ∀ y ∈ l, timeDiff q.time now ≤ timeDiff y.time now := by
      intro q hq y hy
      obtain ⟨b, r, rfl, hb, hr⟩ := (ih q).mp hq
      rcases List.mem_append.mp hy with h | h
      · exact (hb y h).le
      · rcases List.mem_cons.mp h with rfl | h
        · exact le_refl _
        · exact hr y h
    constructor
    · intro h
      simp only [earliestPulse] at h
      cases hl : earliestPulse now l with
      | none =>
        obtain rfl := (earliestPulse_eq_none now l).mp hl
        obtain rfl : x = p := by simpa using h
        exact ⟨[], [], rfl, by simp, by simp⟩
      | some q =>
        rw [hl] at h
        by_cases hlt : timeDiff q.time now < timeDiff x.time now
        · obtain rfl : q = p := by simpa [hlt] using h
          obtain ⟨b, r, rfl, hb, hr⟩ := (ih q).mp hl
          exact ⟨x :: b, r, rfl, by simpa [hlt] using hb, hr⟩
        · obtain rfl : x = p := by simpa [hlt] using h
          exact ⟨[], l, rfl, by simp, fun y hy => le_trans (not_lt.mp hlt) (least q hl y hy)⟩
    · rintro ⟨b, r, h, hb, hr⟩
      simp only [earliestPulse]
      cases b with
      | nil =>
        obtain ⟨rfl, rfl⟩ := List.cons.inj h
        cases hl : earliestPulse now l with
        | none => rfl
        | some q =>
          obtain ⟨b, r, rfl, -, -⟩ := (ih q).mp hl
          simp [not_lt.mpr (hr q (by simp))]
      | cons y b =>
        obtain ⟨rfl, hl⟩ := List.cons.inj h
        rw [(ih p).mpr ⟨b, r, hl, fun q hq => hb q (List.mem_cons_of_mem _ hq), hr⟩]
        simp [hb x (by simp)]

end Sys2Proof.Machine
end

