-- ==== Sys2Proof/Laws/Transactions.lean ====
section
/-! SUPPORT. What the end of a transaction does on each port: lemmas for the rig control port, an eye port and the pair port,
the level of SDO, and the lengths of the records they carry. -/

namespace Sys2Proof.Machine

/-! ## Record lengths -/

@[simp] theorem be_length (k n : Nat) : (be k n).length = k := by
  induction k generalizing n with
  | zero => rfl
  | succ k ih => simp [be, ih]

@[simp] theorem zeros_length (n : Nat) : (zeros n).length = n := by simp [zeros]

@[simp] theorem padded_length {α : Type} (fill : α) (l : List α) (n : Nat) : (padded fill l n).length = n := by
  simp [padded]; omega

@[simp] theorem clockOut_length (image : List Byte) (n : Nat) : (clockOut image n).length = n := by simp [clockOut]

@[simp] theorem thenZeros_length (out : List Bool) (n : Nat) : (thenZeros out n).length = n := by simp [thenZeros]

/-- An abandoned transaction carries what had gone out, then 0 alone. -/
theorem thenZeros_getD (out : List Bool) (n i : Nat) (h : i < n) : (thenZeros out n).getD i false = out.getD i false := by
  simp only [thenZeros, padded, List.getD_eq_getElem?_getD, List.getElem?_append, List.getElem?_take,
    List.getElem?_replicate, List.length_take]
  by_cases hi : i < out.length
  · simp [h, hi]
  · have : ¬ i < min n out.length := by omega
    simp only [this, if_false]
    split <;> simp [List.getElem?_eq_none (Nat.le_of_not_lt hi)]

@[simp] theorem frameRecord_length (kind : Byte) (body : List Byte) : (frameRecord kind body).length = body.length + 4 := by
  simp [frameRecord, withCheck]

theorem requestRecord_bits (r : Request) (pad : Nat) : 8 * (requestRecord r).length + pad = requestBits r pad := by
  simp [requestRecord, requestBits]

theorem reportRecord_bits (r : Report) (pad : Nat) : 8 * (reportRecord r).length + pad = reportBits r pad := by
  simp [reportRecord, reportBits]

/-! ## The rig control port -/

/-- The state once a judged transaction of `n` bits has closed and before its decision. -/
def State.rcpClosed (s : State) (n : Nat) : State :=
  { s with rcp :=
    { s.rcp with selLow := false, txn := none, sent := clockOut (responseRecord s.latchedResponse) n } }

/-- A judged transaction closes and then decides. -/
theorem rcpEnd_serves (n : Nat) (d : State → State) (s : State) (h : s.rcpServes) :
    rcpEnd n d s = d (s.rcpClosed n) := by
  obtain ⟨h, h'⟩ := h
  by_cases hl : s.rcp.selLow = true
  · obtain ⟨t, ht⟩ := Option.isSome_iff_exists.mp (h' hl)
    simp [rcpEnd, rcpStart, State.rcpClosed, State.latchedResponse, hl, ht, State.mapRcp]
  · simp [rcpEnd, rcpStart, State.rcpClosed, State.latchedResponse, hl, h, State.mapRcp]

/-- A transaction that is not judged, begun in a reset or abandoned by one, decides nothing. -/
theorem rcpEnd_ignored (n : Nat) (d : State → State) (s : State) (h : s.rcp.selLow = true) (h' : s.rcp.txn = none) :
    rcpEnd n d s = { s with rcp := { s.rcp with selLow := false, sent := thenZeros s.rcp.sent n } } := by
  simp [rcpEnd, rcpStart, h, h', State.mapRcp]

/-- The end of a request's transaction. -/
theorem rcpRequest_serves (r : Request) (pad : Nat) (d : State → State) (s : State) (h : s.rcpServes) :
    rcpRequest r pad d s =
      (if r.framable then d else answer (requestKind r) .format) (s.rcpClosed (requestBits r pad)) := by
  rw [rcpRequest, rcpEnd_serves _ _ _ h, requestRecord_bits]

/-- The end of the transaction of a request that can be framed. -/
theorem rcpRequest_framable (r : Request) (pad : Nat) (d : State → State) (s : State) (h : s.rcpServes)
    (hr : r.framable = true) : rcpRequest r pad d s = d (s.rcpClosed (requestBits r pad)) := by
  rw [rcpRequest_serves _ _ _ _ h, if_pos hr]

@[simp] theorem rcpClosed_frame (s : State) (n : Nat) :
    (s.rcpClosed n).timebase = s.timebase ∧ (s.rcpClosed n).cg = s.cg ∧ (s.rcpClosed n).eyes = s.eyes ∧
      (s.rcpClosed n).ae = s.ae ∧ (s.rcpClosed n).tp = s.tp ∧ (s.rcpClosed n).lts = s.lts ∧
      (s.rcpClosed n).lme = s.lme ∧ (s.rcpClosed n).pe = s.pe ∧ (s.rcpClosed n).pq = s.pq ∧
      (s.rcpClosed n).resets = s.resets ∧ (s.rcpClosed n).pending = s.pending ∧ (s.rcpClosed n).isHeld = s.isHeld ∧
      ∀ e, (s.rcpClosed n).eye e = s.eye e := by
  simp [State.rcpClosed, State.isHeld, State.eye]

/-- An answered request that changes nothing else. -/
theorem respond_rcpClosed (s : State) (n : Nat) (kind : Byte) (code : ResponseCode) (body : List Byte) :
    respond kind code body (s.rcpClosed n) = { s with rcp := s.rcpAnswered n kind code body } := rfl

/-! ## An eye port -/

/-- Two updates of one eye's port are one. -/
theorem mapEye_mapEye (e : Eye) (f g : EyePort → EyePort) (s : State) :
    (s.mapEye e f).mapEye e g = s.mapEye e fun p => g (f p) := by
  cases e <;> rfl

/-- An update of a port depends on that port alone. -/
theorem mapEye_congr (e : Eye) (f g : EyePort → EyePort) (s : State) (h : f (s.eye e) = g (s.eye e)) :
    s.mapEye e f = s.mapEye e g := by
  simp only [State.mapEye, State.mapEyes, State.eye] at *
  rw [h]

/-- An update of one eye's port, field by field. -/
theorem mapEye_eq (e : Eye) (f : EyePort → EyePort) (s : State) :
    s.mapEye e f = { s with eyes := s.eyes.set e (f (s.eye e)) } := rfl

/-- A served transaction ends and the port places the report. -/
theorem eyeEnd_serves (e : Eye) (n : Nat) (judged : Option Report) (s : State) (h : s.eyeServes e) :
    eyeEnd e n judged s = placeReport e judged (s.mapEye e fun p => p.ended n p.slot p.lost) := by
  obtain ⟨h1, h2, h3, h4⟩ := h
  by_cases hl : (s.eye e).selLow = true
  · obtain ⟨t, ht, hs⟩ := h4 hl
    simp only [eyeEnd, eyeStart, hl, if_true, State.mapEye_eye_same, ht, Option.map_some, EyeTxn.clock, hs, mapEye_mapEye]
    congr 1
    apply mapEye_congr
    simp only [EyePort.finishServed, EyePort.ended, EyePort.latchedImage, EyePort.writtenSince, EyePort.freshAfter, hl, ht]
    by_cases h5 : t.writeSinceLatch = true <;> by_cases h6 : (imageBytes (s.eye e).image).length ≤ n / 8 <;>
      simp [h5, h6]
  · have hs : (s.eye e).serves = true := by simp [EyePort.serves, h2, h3]
    simp only [eyeEnd, eyeStart, hl, h1, if_false, State.mapEye_eye_same, mapEye_mapEye, EyePort.start, hs,
      if_true, Option.map_some, EyeTxn.clock, Bool.false_eq_true]
    congr 1
    apply mapEye_congr
    simp only [EyePort.finishServed, EyePort.ended, EyePort.latchedImage, EyePort.writtenSince, EyePort.freshAfter,
      EyePort.latch, hl, hs, if_true]
    by_cases h6 : (imageBytes ((s.eye e).buffer.map fun d => ⟨d, (s.eye e).fresh⟩)).length ≤ n / 8 <;>
      simp [h6]

/-- A transaction that was abandoned judges nothing, and the rest of it carried 0x00. -/
theorem eyeEnd_abandoned (e : Eye) (n : Nat) (judged : Option Report) (s : State) (h : (s.eye e).selLow = true)
    (h' : (s.eye e).txn = none) :
    eyeEnd e n judged s =
      s.mapEye e fun p => { p with selLow := false, image := none, sent := thenZeros p.sent n } := by
  simp only [eyeEnd, eyeStart, h, if_true, State.mapEye_eye_same, h', Option.map_none, mapEye_mapEye]
  apply mapEye_congr
  simp [EyePort.finishUnserved, h']

/-! ## The pair port -/

/-- A read that was abandoned, or begun in a reset, removes no record, and the rest of it carried 0x00. -/
theorem pairEnd_abandoned (n : Nat) (s : State) (h : s.pq.selLow = true) (h' : s.pq.read = none) :
    pairEnd n s = { s with pq := { s.pq with selLow := false, sent := thenZeros s.pq.sent n } } := by
  simp [pairEnd, pairStart, PairQueue.finish, h, h', State.mapPq]

/-! ## SDO -/

/-- SDO is low between transactions. -/
@[simp] theorem sdoLevel_between (record : List Byte) (sent : List Bool) : sdoLevel false record sent = false := rfl

/-- SDO is low where no record is going out: in a transaction that is ignored or abandoned. -/
@[simp] theorem sdoLevel_empty (selLow : Bool) (sent : List Bool) : sdoLevel selLow [] sent = false := by
  simp [sdoLevel, toBits]

/-- SDO is low beyond the record. -/
theorem sdoLevel_beyond (selLow : Bool) (record : List Byte) (sent : List Bool)
    (h : 8 * record.length ≤ sent.length) : sdoLevel selLow record sent = false := by
  rw [sdoLevel, List.getD_eq_default _ _ (by rwa [toBits_length]), Bool.and_false]

end Sys2Proof.Machine
end

