-- ==== Sys2Proof/Laws/Requests.lean ====
section
/-! SUPPORT. What each request command does when its transaction is judged (R163, R164): the owner's decision on the state
whose transaction has closed. -/

namespace Sys2Proof.Machine

theorem exec_profile_serves (p : RawProfile) (pad : Nat) (s : State) (h : s.rcpServes) :
    exec (.profile p pad) s = .next (decideProfile p (s.rcpClosed (requestBits (.profile p) pad))) :=
  congrArg _ (rcpRequest_framable _ _ _ _ h rfl)

theorem exec_source_serves (code : Byte) (pad : Nat) (s : State) (h : s.rcpServes) :
    exec (.source code pad) s = .next (decideSource code (s.rcpClosed (requestBits (.source code) pad))) :=
  congrArg _ (rcpRequest_framable _ _ _ _ h rfl)

theorem exec_rate_serves (target : BitVec 32) (marks : BitVec 16) (pad : Nat) (s : State) (h : s.rcpServes) :
    exec (.rate target marks pad) s = .next (decideRate target marks (s.rcpClosed (requestBits (.rate target marks) pad))) :=
  congrArg _ (rcpRequest_framable _ _ _ _ h rfl)

theorem exec_shutter_serves (mode : Byte) (value : BitVec 32) (pad : Nat) (s : State) (h : s.rcpServes) :
    exec (.shutter mode value pad) s = .next (decideShutter mode value (s.rcpClosed (requestBits (.shutter mode value) pad))) :=
  congrArg _ (rcpRequest_framable _ _ _ _ h rfl)

theorem exec_demand_serves (axes : Byte) (focus iris zoom : BitVec 16) (pad : Nat) (s : State) (h : s.rcpServes) :
    exec (.demand axes focus iris zoom pad) s = .next
      (decideDemand axes focus iris zoom (s.rcpClosed (requestBits (.demand axes focus iris zoom) pad))) :=
  congrArg _ (rcpRequest_framable _ _ _ _ h rfl)

theorem exec_roll_serves (pad : Nat) (s : State) (h : s.rcpServes) :
    exec (.roll pad) s = .next (decideRoll (s.rcpClosed (requestBits .roll pad))) :=
  congrArg _ (rcpRequest_framable _ _ _ _ h rfl)

theorem exec_cut_serves (pad : Nat) (s : State) (h : s.rcpServes) :
    exec (.cut pad) s = .next (decideCut (s.rcpClosed (requestBits .cut pad))) :=
  congrArg _ (rcpRequest_framable _ _ _ _ h rfl)

theorem exec_portEnable_serves (eye : Byte) (pad : Nat) (s : State) (h : s.rcpServes) :
    exec (.portEnable eye pad) s = .next (decidePort eye 1 (s.rcpClosed (requestBits (.port eye 1) pad))) :=
  congrArg _ (rcpRequest_framable _ _ _ _ h rfl)

theorem exec_portDisable_serves (eye : Byte) (pad : Nat) (s : State) (h : s.rcpServes) :
    exec (.portDisable eye pad) s = .next (decidePort eye 0 (s.rcpClosed (requestBits (.port eye 0) pad))) :=
  congrArg _ (rcpRequest_framable _ _ _ _ h rfl)

theorem exec_stageReset_serves (pad : Nat) (s : State) (h : s.rcpServes) :
    exec (.stageReset pad) s = .next (decideStageReset (s.rcpClosed (requestBits .stageReset pad))) :=
  congrArg _ (rcpRequest_framable _ _ _ _ h rfl)

theorem exec_commit_serves (slot : Byte) (pad : Nat) (s : State) (h : s.rcpServes) :
    exec (.commit slot pad) s = .next (decideCommit slot (s.rcpClosed (requestBits (.commit slot) pad))) :=
  congrArg _ (rcpRequest_framable _ _ _ _ h rfl)

theorem exec_discard_serves (slot : Byte) (pad : Nat) (s : State) (h : s.rcpServes) :
    exec (.discard slot pad) s = .next (decideDiscard slot (s.rcpClosed (requestBits (.discard slot) pad))) :=
  congrArg _ (rcpRequest_framable _ _ _ _ h rfl)

theorem exec_save_serves (slot : Byte) (pad : Nat) (s : State) (h : s.rcpServes) :
    exec (.save slot pad) s = .next (decideSave slot (s.rcpClosed (requestBits (.save slot) pad))) :=
  congrArg _ (rcpRequest_framable _ _ _ _ h rfl)

theorem exec_readSlot_serves (slot : Byte) (offset : BitVec 16) (length : Byte) (pad : Nat) (s : State) (h : s.rcpServes) :
    exec (.readSlot slot offset length pad) s = .next
      (decideReadSlot slot offset length (s.rcpClosed (requestBits (.readSlot slot offset length) pad))) :=
  congrArg _ (rcpRequest_framable _ _ _ _ h rfl)

theorem exec_query_serves (pad : Nat) (s : State) (h : s.rcpServes) :
    exec (.query pad) s = .next (decideQuery (s.rcpClosed (requestBits .query pad))) :=
  congrArg _ (rcpRequest_framable _ _ _ _ h rfl)

theorem exec_clearNotices_serves (mask : BitVec 16) (pad : Nat) (s : State) (h : s.rcpServes) :
    exec (.clearNotices mask pad) s = .next (decideClearNotices mask (s.rcpClosed (requestBits (.clearNotices mask) pad))) :=
  congrArg _ (rcpRequest_framable _ _ _ _ h rfl)

theorem exec_reset_serves (pad : Nat) (s : State) (h : s.rcpServes) :
    exec (.reset pad) s = .next (decideReset (s.rcpClosed (requestBits .reset pad))) :=
  congrArg _ (rcpRequest_framable _ _ _ _ h rfl)

theorem exec_stageWrite_serves (offset : BitVec 16) (data : List Byte) (pad : Nat) (s : State) (h : s.rcpServes)
    (h1 : 1 ≤ data.length) (h64 : data.length ≤ 64) :
    exec (.stageWrite offset data pad) s =
      .next (decideStageWrite offset data (s.rcpClosed (requestBits (.stageWrite offset data) pad))) :=
  congrArg _ (rcpRequest_framable _ _ _ _ h (by simp [Request.framable, h1, h64]))

/-- A STAGE_WRITE of a length its kind does not allow is FORMAT (R163). -/
theorem exec_stageWrite_format (offset : BitVec 16) (data : List Byte) (pad : Nat) (s : State) (h : s.rcpServes)
    (hd : ¬ (1 ≤ data.length ∧ data.length ≤ 64)) :
    exec (.stageWrite offset data pad) s =
      .next { s with rcp := s.rcpAnswer (.stageWrite offset data) pad .format } := by
  have hf : (Request.stageWrite offset data).framable = false := by simpa [Request.framable] using hd
  simp only [exec, execStageWrite, rcpRequest_serves _ _ _ _ h, hf, Bool.false_eq_true, if_false]
  rfl

/-- A transaction known by its bits is judged by R163 on its whole bytes. -/
theorem exec_rcpRecordRefused_serves (bits : List Bool) (s : State) (h : s.rcpServes) :
    exec (.rcpRecordRefused bits) s =
      .next (actOn (judgeTransaction (wholeBytes bits)) (s.rcpClosed bits.length)) :=
  congrArg _ (rcpEnd_serves _ _ _ h)

/-- Storing a response on a closed transaction changes the rig control port alone. -/
theorem answer_rcpClosed (r : Request) (pad : Nat) (code : ResponseCode) (s : State) :
    answer (requestKind r) code (s.rcpClosed (requestBits r pad)) = { s with rcp := s.rcpAnswer r pad code } := rfl

end Sys2Proof.Machine
end

