-- ==== Sys2Proof/Laws/Staging.lean ====
section
/-! SUPPORT. The staging buffer, the part's one addressed buffer (R95, R96): its form, and reading after writing. The image
of a lens slot as READ_SLOT reads it (R112). -/

namespace Sys2Proof.Machine

/-- The buffer as STAGE_RESET and a reset leave it has the form. -/
theorem emptyStaging_wf : Staging.wf emptyStaging := by
  simp [Staging.wf, emptyStaging, emptyImage, withCheck, Config.stagingBytes]

/-- A write keeps the form. -/
theorem writeBytes_wf (buffer : List Byte) (offset : Nat) (data : List Byte) (h : Staging.wf buffer)
    (hd : offset + data.length ≤ 400) : Staging.wf (writeBytes buffer offset data) := by
  simp only [Staging.wf, Config.stagingBytes] at *
  simp only [writeBytes, List.length_take, List.length_append, List.length_drop, h]
  omega

/-- Reading after a write: the written byte inside the run, the byte that stood there outside it. -/
theorem writeBytes_getD (buffer : List Byte) (offset : Nat) (data : List Byte)
    (hd : offset + data.length ≤ buffer.length) (i : Nat) (hi : i < buffer.length) :
    (writeBytes buffer offset data).getD i 0 =
      if offset ≤ i ∧ i < offset + data.length then data.getD (i - offset) 0 else buffer.getD i 0 := by
  have ho : min offset buffer.length = offset := by omega
  simp only [writeBytes, List.getD_eq_getElem?_getD, List.getElem?_take, List.getElem?_append, List.length_append,
    List.length_take, List.getElem?_drop, ho]
  split
  · split
    · split
      · rename_i h; rw [if_neg (by omega)]
      · rw [if_pos (by omega)]
    · rw [if_neg (by omega)]
      congr 2
      omega
  · omega

/-- The reset state's buffer has the form. -/
theorem reset_staging_wf : Staging.wf State.reset.lts.staging := emptyStaging_wf

/-- What READ_SLOT answers: the image's bytes, 0x00 beyond its end. -/
theorem readBytes_getD (image : List Byte) (offset n i : Nat) (hi : i < n) :
    (readBytes image offset n).getD i 0 = image.getD (offset + i) 0 := by
  simp only [readBytes, padded, List.getD_eq_getElem?_getD, List.getElem?_append, List.getElem?_take,
    List.getElem?_drop, List.getElem?_replicate, List.length_take, List.length_drop]
  split
  · rfl
  · rename_i h
    rw [List.getElem?_eq_none (l := image) (by omega)]
    split <;> simp

end Sys2Proof.Machine
end

