-- ==== Sys2Proof/Tests/Slice0.lean ====
section
/-! SUPPORT. The package's own tests: the refusals of the WellFormed checks, one step of each command with the value that a
worked example or rule of spec/ gives, and for each obligation with hypotheses a state and operands that meet them, clause by
clause. -/

namespace Sys2Proof.Tests
open Sys2Proof Sys2Proof.Machine

-- The theorems are elaborated in turn. Each kernel evaluation waits for the kernel's check of what stands before it, and
-- a hundred of them waiting at one time would take a thread each.
set_option Elab.async false

/-! ## Small states -/

/-- The state after one command. -/
def run (c : Instr) (s : State) : State :=
  match exec c s with
  | .next t => t
  | _ => s

/-- The left camera's offers of spec/03_mode_agreement.md, 3.11. -/
def offersL : List RawOffer := [⟨0, 3, 1250000, 0, 0, 50000, 60000⟩, ⟨1, 7, 2400000, 0, 0, 80000, 30000⟩]

/-- The right camera's offers of 3.11. -/
def offersR : List RawOffer :=
  [⟨0, 3, 1250000, 0, 0, 50000, 60000⟩, ⟨1, 3, 1250000, 1, 1300000, 50000, 50000⟩,
    ⟨2, 7, 2400000, 1, 2400000, 80000, 30000⟩]

/-- The left camera's CAPS: identity 70,112, FOCUS motorised (11.1). -/
def capsL : RawCaps := ⟨1, 70112, 1, offersL⟩

/-- The right camera's CAPS: identity 81,440 (11.1). -/
def capsR : RawCaps := ⟨1, 81440, 1, offersR⟩

def offer0 : Offer := ⟨0, ⟨3, 1250000, none, 50000, 60000⟩⟩

def offer1 : Offer := ⟨1, ⟨3, 1250000, some 1300000, 50000, 50000⟩⟩

/-- The agreement of 3.11: L offer 0 and R offer 1. -/
def deal : Agreement := pairAgreement .atReset offer0 offer1

/-- An attached eye with HALT in its buffer. -/
def eyeIn (st : EyeState) (raw : RawCaps) : EyePort :=
  { EyePort.atReset true false [] with
    state := st
    timer := .low 0
    buffer := some .halt
    caps := judgeCaps raw }

/-- Both eyes in a state, their CAPS held, the store READY. -/
def attached (st : EyeState) : State :=
  { State.reset with
    eyes := ⟨eyeIn st capsL, eyeIn st capsR⟩
    lts := { State.reset.lts with store := .ready } }

/-- Both eyes AGREED in SETUP. -/
def agreed : State := { attached .agreed with ae := { AgreementEngine.atReset with agreement := some deal } }

/-- Both eyes PROPOSED the deal in SETUP. -/
def proposed : State := { attached .proposed with ae := agreed.ae }

/-- The plan for mark 0 of a take begun in `agreed`, in progress (11.3). -/
def rolled : State := run (.roll 0) agreed

/-- The same plan, prepared. -/
def planned : State := run .planComplete rolled

/-- After mark 0: both eyes RUNNING, the R pulse fired, the L pulse scheduled. -/
def marked : State := run .rollingMark planned

/-- After the L pulse. -/
def fired : State := run (.triggerPulse .left) marked

/-- A take that is draining. -/
def draining : State := run (.cut 0) marked

/-- The window of one slot at age `k` in a drain that has counted `k` marks. -/
def drained (k : Nat) : State :=
  { draining with
    cg := { draining.cg with drainCount := k }
    pe := { draining.pe with window := draining.pe.window.map fun p => { p with age := k } } }

/-- A receive slot filled. -/
def withSlot (e : Eye) (r : Report) (s : State) : State := s.mapEye e fun p => { p with slot := some r }

/-- A reset in force. -/
def held : State := run (.pinReset 1000) State.reset

/-- The source is REF and the reference is in a state, with P of 4,000,000 and a mark 1,000,000 ticks ahead. -/
def onRef (ref : RefState) (s : State) : State :=
  s.mapCg fun c =>
    { c with
      source := .ref
      ref := ref
      period := some 4000000
      nextMark := some 1000000
      window := some ⟨1000000, 500000, none⟩ }

/-- The reference window's mark has been issued. -/
def issued (number : Option MarkNumber) (s : State) : State :=
  s.mapCg fun c => { c with window := some ⟨1000000, 500000, some ⟨4000000, number⟩⟩ }

/-- SEEKING, with an edge at 0 and the present instant given. -/
def seeking (now : Nat) (good : Nat) (last : Option Nat) : State :=
  { State.reset with
    timebase := BitVec.ofNat 48 now
    cg := { Cadence.atReset with source := .ref, ref := .seeking, seek := ⟨some 0, last, good⟩ } }

/-- The FOCUS table of the left lens (6.7). -/
def tableL : AxisTable := ⟨4000, [(50, 1200), (100, 20400), (200, 38000), (65535, 52000)]⟩

/-- The FOCUS table of the right lens (6.7). -/
def tableR : AxisTable := ⟨5000, [(50, 900), (100, 21000), (200, 37500), (65535, 51000)]⟩

/-- The decreasing IRIS axis of 6.9. -/
def tableIris : AxisTable := ⟨20000, [(0, 60000), (400, 40000), (800, 30001), (1000, 25000)]⟩

/-- A lens table of one FOCUS axis. -/
def focusTable (identity : BitVec 32) (t : AxisTable) : LensTable := ⟨identity, ⟨some t, none, none⟩⟩

def imageL : LensImage := ⟨focusTable 70112 tableL, (focusTable 70112 tableL).image⟩

/-- The image of the left table staged. -/
def staged (s : State) : State :=
  s.mapLts fun l => { l with staging := writeBytes emptyStaging 0 imageL.image }

/-- The left table in slot 2, and the eyes bound. -/
def loaded (s : State) : State :=
  evalBindings (s.mapLts fun l => { l with slots := l.slots.set 2 ⟨some imageL, none, false⟩ })

/-- A pair record of zeros. -/
def blankRecord : PairRecord where
  kind := .paired
  skew := false
  lensMismatch := false
  rateClamped := false
  holdover := false
  refStep := false
  precededByLoss := false
  opposed := false
  take := 1
  mark := 0
  time := 0
  period := 0
  exposure := 0
  slip := 0
  predicted := 0
  anchorSkew := 0
  worstSkew := 0
  parts := .both ⟨.reported, 0, 0, 0, 0, 0, false, ⟨false, false, false⟩, false⟩
  lens := .all notCompared

/-- A part with `n` records in its pair queue. -/
def queued (n : Nat) : State :=
  State.reset.mapPq fun q => { q with queue := List.replicate n (acceptRecord false blankRecord) }

/-! ## The smoke test of WellFormed -/

theorem test_wf_caps : (Instr.capsReceived .left ⟨0, 0, 0, List.replicate 13 ⟨0, 0, 0, 0, 0, 0, 0⟩⟩ 0).wellFormed = false := by
  decide

theorem test_wf_stage_write : (Instr.stageWrite 0 [] 0).wellFormed = false ∧
    (Instr.stageWrite 0 (List.replicate 65 0) 0).wellFormed = false ∧
    (Instr.stageWrite 0 (List.replicate 64 0) 0).wellFormed = true := by
  decide

theorem test_wf_record_refused : (Instr.rcpRecordRefused [false, false]).wellFormed = false ∧
    (Instr.rcpRecordRefused [false, true]).wellFormed = true := by
  decide

/-- The table gives no row any bits (notes/assumptions/24.md). -/
theorem test_decode_no_word : decodeTableWord 8 0x61 = none := rfl

/-! ## Records -/

/-- The check value of spec/00_scope.md, Conventions. -/
theorem test_record_check : recordCheck [0x31, 0x32, 0x33, 0x34, 0x35, 0x36, 0x37, 0x38, 0x39] = 0x29B1 := by
  decide +kernel

/-- The image of 11.4 is 5 + 19 + 2 = 26 bytes long, and reads back with bytes after it. -/
theorem test_image : imageL.image.length = 26 ∧ readImage (imageL.image ++ [1, 2, 3]) = some imageL := by
  decide +kernel

/-! ## Arithmetic of the worked examples -/

/-- 3.11: without a class wanted the pair (1, 2) with skew 0; with (1, 2) excluded the pair (0, 1). -/
theorem test_choice :
    (((judgeCaps capsL).bind fun l => (judgeCaps capsR).bind fun r => choose .atReset [] l.offers r.offers).map fun a =>
      (a.index, a.skew, a.ceiling, a.floor)) = some (⟨1, 2⟩, 0, 30000, 2480000) ∧
    (((judgeCaps capsL).bind fun l => (judgeCaps capsR).bind fun r =>
      choose .atReset [(1, 2)] l.offers r.offers).map fun a =>
      (a.index, a.skew, a.ceiling, a.floor)) = some (⟨0, 1⟩, 25000, 50000, 1350000) := by
  decide +kernel

/-- A plan begun at an instant with the last readout starts of a worked case. -/
def planAt (now : Time) (period : Nat) (l r : Time) : PlanInProgress :=
  ⟨{ agreed.snapshot deal with
      period := period
      expected := after now period
      lastReadout := ⟨some l, some r⟩ }, .both true, .both false⟩

/-- 4.10: exposure, offsets, slip and edge differences of the plan for mark 11. -/
theorem test_plan_steady :
    let p := (planAt 200000000 4166667 202108333 202083333).plan
    p.exposure = 2083333 ∧ p.offset = ⟨25000, 0⟩ ∧ p.slip = 0 ∧ p.skipped = false ∧ p.p0 = 25000 ∧
      p.p1024 = -25000 ∧ p.skew = 25000 := by
  decide +kernel

/-- 4.11: a slip of 433,333 ticks. 4.12: shortfalls past the quarter period skip the mark. -/
theorem test_plan_slip_and_skip :
    let p := (planAt 300000000 2000000 302108333 302083333).plan
    let q := (planAt 502000000 2000000 504191666 504166666).plan
    p.exposure = 1000000 ∧ p.slip = 433333 ∧ p.skipped = false ∧ q.slip = 516666 ∧ q.skipped = true := by
  decide +kernel

/-- 6.7 and 6.9: ideal counts, with the clamp and the tie on a decreasing axis. -/
theorem test_ideal_counts :
    idealCount tableL 130 = some 25680 ∧ idealCount tableR 130 = some 25950 ∧ idealCount tableL 40 = some 1200 ∧
      idealCount tableL 220 = some 38004 ∧ idealCount tableIris 600 = some 35000 := by
  decide +kernel

/-- 6.7 and 6.9: demands read back. -/
theorem test_read_back :
    readBack tableR 25900 = some 130 ∧ readBack tableR 24000 = some 118 ∧ readBack tableL 1150 = some 50 ∧
      readBack tableIris 35000 = some 600 ∧ readBack tableIris 24000 = some 1000 := by
  decide +kernel

/-- 6.8: targets under slew. 6.7: the error of 12 is a mismatch at tolerance 10. -/
theorem test_slew_and_compare :
    axisTarget (some tableL) true (some 220) (some 25680) = some ⟨29680, false, true⟩ ∧
      axisTarget (some tableR) true (some 220) (some 35950) = some ⟨37504, false, false⟩ ∧
      compareAxis (some tableL) (some tableR) (some 25680) (some 24000) 10 = ⟨true, 12, true⟩ := by
  decide +kernel

/-- 11.5: the step rates of the ramp from 24,000 to 48,000 in 4 marks. -/
theorem test_ramp :
    (Ramp.mk 24000 48000 0 4).next.rate = 30000 ∧ (Ramp.mk 24000 48000 2 4).next.rate = 42000 ∧
      framePeriod 42000 1350000 = 2380952 := by
  decide

/-! ## One step of each command -/

theorem test_profile :
    let p : RawProfile := ⟨0, 1, 3, 24000, 0, 512, 4, 50000, 10, 10, 10⟩
    (run (.profile p 0) State.reset).ae.frame.geometry = 3 ∧
      (run (.profile { p with depth := 1 } 0) State.reset).rcp.response.code = .range := by
  decide +kernel

theorem test_source :
    (run (.source 1 0) State.reset).cg.ref = .seeking ∧ (run (.source 2 0) State.reset).rcp.response.code = .range := by
  decide +kernel

theorem test_rate :
    (run (.rate 60000 0 0) agreed).cg.targetRate = 50000 ∧ (run (.rate 60000 0 0) agreed).rcp.response.code = .clamped := by
  decide +kernel

theorem test_shutter :
    (run (.shutter 0 36001 0) State.reset).tp.shutterValue = 36000 ∧
      (run (.shutter 2 1 0) State.reset).rcp.response.code = .range := by
  decide +kernel

theorem test_demand :
    (run (.demand 1 130 7 7 0) State.reset).lme.demand = ⟨some 130, none, none⟩ ∧
      (run (.demand 8 0 0 0 0) State.reset).rcp.response.code = .range := by
  decide +kernel

/-- 11.3: take 1, and mark 0 one period after ROLL. -/
theorem test_roll :
    rolled.cg.take = 1 ∧ rolled.cg.nextMark = some 4166667 ∧
      (run (.roll 0) State.reset).rcp.response.code = .state := by
  decide +kernel

theorem test_cut :
    draining.cg.rig = .draining ∧ draining.eyes.left.state = .agreed ∧ draining.cg.nextMark = some 8333334 := by
  decide +kernel

theorem test_port :
    (run (.portDisable 0 0) State.reset).eyes.left.enabled = false ∧
      (run (.portEnable 0 0) (run (.portDisable 0 0) State.reset)).eyes.left.enabled = true ∧
      (run (.portEnable 2 0) State.reset).rcp.response.code = .range := by
  decide +kernel

theorem test_port_disable_attached : (run (.portDisable 1 0) agreed).eyes.right.state = .detached ∧
    (run (.portDisable 1 0) agreed).eyes.left.buffer = some (.wait .awaitPeer) := by
  decide +kernel

theorem test_stage_reset : (run (.stageReset 0) (staged State.reset)).lts.staging = emptyStaging := by
  decide +kernel

theorem test_stage_write :
    (run (.stageWrite 399 [7] 0) State.reset).lts.staging.getLast? = some 7 ∧
      (run (.stageWrite 399 [7, 8] 0) State.reset).rcp.response.code = .range := by
  decide +kernel

theorem test_commit :
    ((run (.commit 2 0) (staged agreed)).lts.slot 2).identity = some 70112 ∧
      (run (.commit 2 0) agreed).rcp.response.code = .badTable := by
  decide +kernel

/-- 11.4: a commit to the slot of a RUNNING eye is held. -/
theorem test_commit_held : ((run (.commit 2 0) (staged (loaded marked))).lts.slot 2).pending = some (.commit imageL) := by
  decide +kernel

theorem test_discard :
    ((run (.discard 2 0) (loaded agreed)).lts.slot 2).contents = none ∧
      (run (.discard 2 0) State.reset).rcp.response.code = .busy := by
  decide +kernel

theorem test_save :
    (run (.save 2 0) (loaded agreed)).lts.nv[2]? = some .unfinished ∧
      (run (.save 2 0) State.reset).rcp.response.code = .busy := by
  decide +kernel

theorem test_read_slot :
    (run (.readSlot 2 24 4 0) (loaded agreed)).rcp.response.body.drop 2 = [0, 0] ∧
      (run (.readSlot 2 0 65 0) agreed).rcp.response.code = .range := by
  decide +kernel

theorem test_query :
    let b := (run (.query 0) State.reset).rcp.response.body
    b.length = 124 ∧ byteAt b 119 = 1 ∧ byteAt b 122 = 0x80 ∧ byteAt b 123 = 1 := by
  decide +kernel

theorem test_clear_notices :
    (run (.clearNotices 0x80 0) State.reset).attnHigh = true ∧
      (run (.clearNotices 0x100 0) State.reset).rcp.response.code = .range := by
  decide +kernel

theorem test_reset : (run (.reset 0) agreed).isHeld = true ∧ (run (.reset 0) agreed).rcp.cause = ⟨true, false, true⟩ := by
  decide +kernel

/-- The response NONE: kind 80, body 0A 00 (10.4). -/
theorem test_collection :
    (run (.collection 32) (run (.rcpTransactionStart 9) State.reset)).rcp.sent = toBits [0x80, 2, 0x0A, 0] ∧
      (run (.rcpTransactionStart 0) State.reset).rcp.sdoHigh = true ∧ State.reset.rcp.sdoHigh = false := by
  decide +kernel

theorem test_record_refused :
    (run (.rcpRecordRefused (toBits [1, 2, 3])) State.reset).rcp.response = ⟨.format, 1, []⟩ ∧
      (run (.rcpRecordRefused (toBits (frameRecord 0x60 []))) State.reset).rcp.response = ⟨.unknown, 0x60, []⟩ := by
  decide +kernel

theorem test_eye_start :
    (run (.eyeTransactionStart .left 0) agreed).eyes.left.image = some ⟨.halt, false⟩ ∧
      ((run (.eyeTransactionStart .left 0) State.reset).eyes.left.txn.map EyeTxn.served) = some false := by
  decide +kernel

theorem test_caps_received : (run (.capsReceived .left capsL 0) (attached .listening)).eyes.left.slot = some (.caps capsL) := by
  decide +kernel

theorem test_accept_refuse_received :
    (run (.acceptReceived .left 0 0) proposed).eyes.left.slot = some (.accept 0) ∧
      (run (.refuseReceived .left 0 0) agreed).eyes.left.lost = 1 := by
  decide +kernel

def frame0 : RawFrame := ⟨0, 0, 4000, 0, 1, 25680, 0, 0⟩

theorem test_frame_received : (run (.frameReceived .left frame0 0) fired).eyes.left.slot = some (.frame frame0) ∧
    (run (.frameReceived .left frame0 0) agreed).eyes.left.lost = 1 := by
  decide +kernel

theorem test_idle : (run (.idle .left 0) agreed).eyes.left.lost = 0 ∧ (run (.idle .left 0) agreed).eyes.left.slot = none := by
  decide +kernel

theorem test_report_discarded : (run (.reportDiscarded .left (toBits [0x2F])) agreed).eyes.left.lost = 1 := by decide +kernel

/-- An IDLE of 32 bits whose last bit was not clocked has no whole check, and is lost (R33, R40). -/
theorem test_unfinished_byte :
    (run (.reportDiscarded .left (toBits (reportRecord .idle))) agreed).eyes.left.lost = 0 ∧
      (run (.reportDiscarded .left ((toBits (reportRecord .idle)).take 31)) agreed).eyes.left.lost = 1 := by
  decide +kernel

/-- A reset after 4 bits of HALT (kind 43): the transaction of 16 bits carries 4 and 0x00 for the rest of it, and judges and
counts nothing (R25, R39, R175). -/
theorem test_abandoned_transaction :
    let t := run (.reportDiscarded .left (toBits [0x2F, 0x00]))
      (run (.pinReset 1000) (run (.eyeTransactionStart .left 4) agreed))
    t.eyes.left.sent = toBits [0x40, 0] ∧ t.eyes.left.lost = 0 := by
  decide +kernel

/-- 3.11: both CAPS held, the choice proposes L offer 1 and R offer 2, the reverse yes for R. -/
theorem test_caps_taken :
    let t := run (.capsTaken .right) (withSlot .right (.caps capsR) (attached .held))
    t.eyes.left.buffer = some (.agree 1 false) ∧ t.eyes.right.buffer = some (.agree 2 true) := by
  decide +kernel

theorem test_accept_taken : (run (.acceptTaken .left) (withSlot .left (.accept 0) proposed)).eyes.left.state = .agreed ∧
    (run (.acceptTaken .left) (withSlot .left (.accept 1) proposed)).eyes.left.lost = 1 := by
  decide +kernel

/-- A refused deal is not chosen again (R58). -/
theorem test_refuse_taken :
    let t := run (.refuseTaken .right) (withSlot .right (.refuse 1) proposed)
    t.ae.exclusion = [(0, 1)] ∧ t.eyes.left.buffer = some (.agree 1 false) := by
  decide +kernel

/-- 11.3: the slot completes with the second report, and its record is PAIRED with worst-row skew 28,000. -/
theorem test_frame_taken :
    let one := run (.frameTaken .left) (withSlot .left (.frame frame0) fired)
    let two := run (.frameTaken .right) (withSlot .right (.frame ⟨0, 0, 1000, 0, 1, 25950, 0, 0⟩) one)
    one.pq.queue = [] ∧ two.pq.queue.map (fun q => (q.record.kind, q.record.anchorSkew, q.record.worstSkew)) =
      [(.paired, 3000, 28000)] := by
  decide +kernel

theorem test_presence :
    (run (.presRise .left) State.reset).eyes.left.state = .settling ∧
      (run (.presFall .left) (run (.presRise .left) State.reset)).eyes.left.state = .detached := by
  decide +kernel

theorem test_settle_complete :
    let t := run (.settleComplete .left) (run (.presRise .left) State.reset)
    t.timebase = 10000000 ∧ t.eyes.left.buffer = some (.wait .awaitCaps) := by
  decide +kernel

theorem test_detach :
    let t := run (.detach .left) (run (.presFall .left) agreed)
    t.timebase = 100000 ∧ t.eyes.left.state = .detached ∧ t.eyes.right.buffer = some (.wait .awaitPeer) := by
  decide +kernel

/-- 11.3: mark 0 makes both eyes RUNNING and fires the R pulse; the L pulse waits 25,000 ticks. -/
theorem test_rolling_mark :
    marked.timebase = 4166667 ∧ marked.cg.markCounter = 1 ∧ marked.eyes.left.state = .running ∧
      marked.eyes.right.trigHigh = true ∧ marked.tp.pulses.left = [⟨0, 4191667⟩] := by
  decide +kernel

theorem test_plan_complete :
    planned.eyes.left.buffer = some (.run ⟨0, 4166667, 2083333, 25000, 0, false, .all none⟩) := by
  decide +kernel

/-- A take begun with the left table bound and a FOCUS demand of 130 (6.7); no table for the right eye. -/
def lensed : State := run (.roll 0) (run (.demand 1 130 0 0 0) (loaded agreed))

/-- The plan reads each eye's own table: the ideal count of 6.7 for the left eye, UNCALIBRATED for the right (R106, R117). -/
theorem test_plan_lens :
    ((run .planComplete lensed).tp.prepared.map fun p => (p.targets.left.focus, p.targets.right.focus)) =
      some (some 25680, none) ∧
    ((run .planComplete lensed).tp.prepared.map fun p => (p.flags.left.uncalibrated, p.flags.right.uncalibrated)) =
      some (false, true) := by
  decide +kernel

/-- W = 4: the fourth drain mark ends the drain, and the slot that reached age W retires. -/
theorem test_drain_mark :
    let t := run .drainMark (drained 3)
    t.cg.rig = .setup ∧ t.pe.window = [] ∧ t.pq.queue.map (fun q => q.record.kind) = [.orphan] := by
  decide +kernel

/-- The fourth drain mark, whose record takes a left lost-report count of `n`. -/
def takenWith (n : Nat) : State := run .drainMark ((drained 3).mapEye .left fun p => { p with lost := n })

/-- A report lost in the instant of a take, after it: the count is 1, or 255 if it was saturated; a tick later it is 1 (R44). -/
theorem test_lost_after_take :
    let lose (s : State) : Nat := (run (.reportDiscarded .left (toBits [0x2F])) s).eyes.left.lost
    (takenWith 255).pq.queue.map (fun q => q.record.parts.left.lostReports) = [255] ∧ lose (takenWith 255) = 255 ∧
      lose (takenWith 254) = 1 ∧ lose (tick (takenWith 255)) = 1 := by
  decide +kernel

theorem test_lead_mark :
    let t := run .leadMark (run (.roll 0) (onRef .locked agreed))
    t.cg.markCounter = 0 ∧ t.cg.leadOwed = false ∧ t.tp.inProgress.isSome = true := by
  decide +kernel

theorem test_setup_mark : (run .setupReferenceMark (onRef .locked State.reset)).cg.lastMark = none ∧
    (run .setupReferenceMark (onRef .locked State.reset)).timebase = 1000000 := by
  decide +kernel

/-- The third good interval locks, one P before the first mark (R17). -/
theorem test_refin_edge : (run .refinEdge (seeking 4000000 2 (some 4000000))).cg.nextMark = some 8000000 ∧
    (run .refinEdge (seeking 399999 2 (some 4000000))).cg.seek.good = 0 := by
  decide +kernel

/-- Two empty windows in a row lose the reference (R21). -/
theorem test_window_close :
    let s := (issued none (onRef .locked State.reset)).mapCg fun c => { c with lock := ⟨none, 1, false⟩ }
    (run .refWindowClose s).cg.ref = .holdover ∧ (run .refWindowClose s).cg.nextMark = some 5000000 := by
  decide +kernel

theorem test_trigger_pulse : fired.timebase = 4191667 ∧ fired.pe.triggers.left = [⟨0, 0⟩] ∧
    (run (.trigPulseEnd .left) fired).timebase = 4191767 := by
  decide +kernel

/-- Three pulses of the left eye, of which those of marks 1 and 2 are due before that of mark 0 (R85). -/
def crossing : State :=
  marked.mapTp fun t => { t with pulses := ⟨[⟨0, 8400000⟩, ⟨1, 8300000⟩, ⟨2, 8300000⟩], []⟩ }

/-- Each pulse fires at its own trigger time (R85, R86). -/
theorem test_pulse_own_time :
    (run (.triggerPulse .left) crossing).timebase = 8300000 ∧
    (run (.triggerPulse .left) crossing).tp.pulses.left = [⟨0, 8400000⟩, ⟨2, 8300000⟩] ∧
    (run (.triggerPulse .left) crossing).pe.triggers.left = [⟨0, 1⟩] := by
  decide +kernel

theorem test_save_complete :
    let t := run .saveComplete (run (.save 2 0) (loaded agreed))
    t.timebase = 2000000 ∧ t.lts.nv[2]? = some (.image imageL.image) ∧ hasNotice t.rcp.notices .storeDone = true := by
  decide +kernel

theorem test_load_complete :
    let s := State.reset.mapLts fun l => { l with nv := (l.nv.set 2 (.image imageL.image)).set 3 .unfinished }
    ((run .loadComplete s).lts.slot 2).contents = some imageL ∧ ((run .loadComplete s).lts.slot 3).bad = true := by
  decide +kernel

/-- 74 bytes remove the head; 73 do not (R158). -/
theorem test_pair_read :
    (run (.pairReadEnd 592) (run (.pairReadStart 0) (queued 2))).pq.queue.length = 1 ∧
      (run (.pairReadEnd 591) (run (.pairReadStart 0) (queued 2))).pq.queue.length = 2 := by
  decide +kernel

theorem test_power_on_reset : (run .powerOnReset agreed).rcp.cause = ⟨true, false, false⟩ ∧
    (run .powerOnReset agreed).eyes.left.state = .detached := by
  decide +kernel

theorem test_pin_reset : (run (.pinReset 999) State.reset).isHeld = false ∧ held.isHeld = true := by decide +kernel

theorem test_reset_release : (run (.resetRelease .pin) held).isHeld = false ∧
    (run (.resetRelease .pin) held).rcp.notices = 0x80 := by
  decide +kernel

/-! ## States that meet the hypotheses of the obligations, clause by clause -/

/-- Both eyes, one at a time. -/
theorem both_eyes {p : Eye → Prop} (l : p .left) (r : p .right) : ∀ e, p e
  | .left => l
  | .right => r

theorem reset_serves : State.reset.rcpServes := ⟨rfl, by decide⟩

theorem agreed_serves : agreed.rcpServes := ⟨rfl, by decide⟩

theorem proposed_serves : proposed.rcpServes := ⟨rfl, by decide⟩

theorem marked_serves : marked.rcpServes := ⟨by decide +kernel, by decide +kernel⟩

theorem loaded_serves : (staged (loaded agreed)).rcpServes := ⟨by decide +kernel, by decide +kernel⟩

theorem loaded_marked_serves : (staged (loaded marked)).rcpServes := ⟨by decide +kernel, by decide +kernel⟩

/-- A transaction begun by the falling edge is judged too. -/
theorem begun_serves : (run (.rcpTransactionStart 5) agreed).rcpServes := ⟨by decide +kernel, by decide +kernel⟩

/-- The part in reset with every transaction begun before it abandoned after some bits. -/
def abandoned : State :=
  run (.pinReset 1000)
    (run (.pairReadStart 3) (run (.eyeTransactionStart .left 4) (run (.rcpTransactionStart 12) agreed)))

/-- The left table in slot 2, a change held for it, and the eyes bound. -/
def holding (op : Option PendingOp) (s : State) : State :=
  evalBindings (s.mapLts fun l => { l with slots := l.slots.set 2 ⟨some imageL, op, false⟩ })

theorem imageL_sound : imageL.sound := by
  refine ⟨⟨⟨.focus, rfl⟩, ?_⟩, rfl⟩
  intro a x h
  cases a
  · obtain rfl : tableL = x := Option.some.inj h
    exact ⟨by decide, by decide⟩
  · exact absurd h (by simp [imageL, focusTable, PerAxis.get])
  · exact absurd h (by simp [imageL, focusTable, PerAxis.get])

/-- Each eye is bound by the identity of its CAPS, slot by slot. -/
theorem bound_of (s : State) (h : ∀ e, (∀ k ∈ s.lts.binding.get e, k < 8) ∧ ∀ k, k < 8 →
    (s.lts.binding.get e = some k ↔ ((s.eye e).caps.bind Caps.identity).isSome = true ∧
      (s.lts.slot k).identity = (s.eye e).caps.bind Caps.identity)) : s.boundByIdentity := by
  intro e k
  obtain ⟨h8, h⟩ := h e
  constructor
  · intro hb
    obtain ⟨hi, he⟩ := (h k (h8 k hb)).mp hb
    obtain ⟨i, hi⟩ := Option.isSome_iff_exists.mp hi
    obtain ⟨c, hc, hci⟩ := Option.bind_eq_some_iff.mp hi
    obtain ⟨x, hx, hxi⟩ := Option.map_eq_some_iff.mp (he.trans hi)
    exact ⟨h8 k hb, c, x, i, hc, hci, hx, hxi⟩
  · rintro ⟨hk, c, x, i, hc, hci, hx, hxi⟩
    exact (h k hk).mpr (by simp [hc, hci, hx, hxi, LensSlot.identity])

/-- A state whose only slot in use is slot 2, with the left table and a DISCARD held or nothing, has a sound store. -/
theorem storeSound_of (s : State) (op : Option PendingOp) (hop : op = none ∨ op = some .discard)
    (hs : s.lts.slots = (List.replicate 8 ⟨none, none, false⟩).set 2 ⟨some imageL, op, false⟩)
    (hn : s.lts.nv.length = 8) (hst : s.lts.staging.length = 400) (hsv : s.lts.store = .saving ↔ s.lts.saving.isSome = true)
    (hr : s.cg.rig ≠ .rolling → op = none) (hb : s.boundByIdentity) : s.storeSound := by
  have hm : ∀ l ∈ s.lts.slots, l = ⟨none, none, false⟩ ∨ l = ⟨some imageL, op, false⟩ := by
    rw [hs]
    intro l hl
    rcases List.mem_or_eq_of_mem_set hl with h | h
    · exact .inl (List.eq_of_mem_replicate h)
    · exact .inr h
  have hslot : ∀ j, j < 8 → j ≠ 2 → s.lts.slot j = ⟨none, none, false⟩ := by
    intro j hj hne
    rw [LensStore.slot, hs, List.getD_eq_getElem?_getD, List.getElem?_set_ne hne.symm, List.getElem?_replicate, if_pos hj]
    rfl
  have h2 : s.lts.slot 2 = ⟨some imageL, op, false⟩ := by simp [LensStore.slot, hs]
  have hp : ∀ j, j < 8 → (s.lts.slot j).pendingIdentity = none := by
    intro j hj
    by_cases h : j = 2
    · subst h
      rw [h2]
      rcases hop with rfl | rfl <;> rfl
    · rw [hslot j hj h]; rfl
  refine ⟨by simp [hs], hn, hst, ?_, ?_, hsv, ?_, hb⟩
  · intro l hl
    rcases hm l hl with rfl | rfl
    · exact ⟨by simp, by simp⟩
    · refine ⟨fun c h => ?_, fun c h => ?_⟩
      · obtain rfl : imageL = c := Option.some.inj h
        exact imageL_sound
      · rcases hop with rfl | rfl <;> simp at h
  · intro j k hj hk hne
    refine ⟨fun x hx => ⟨fun hy => ?_, by simp [hp k hk]⟩, fun x hx => absurd hx (by simp [hp j hj])⟩
    by_cases h : j = 2
    · rw [hslot k hk (by omega)] at hy
      exact absurd hy (by simp [LensSlot.identity])
    · rw [hslot j hj h] at hx
      exact absurd hx (by simp [LensSlot.identity])
  · intro h l hl
    rcases hm l hl with rfl | rfl
    · rfl
    · exact hr h

theorem witness_StepRunsFrontCommand : ({ agreed with pending := [.roll 0] } : State).pending = .roll 0 :: [] := rfl

theorem witness_IdleStepsCountTicks : agreed.pending = [] ∧ agreed.isHeld = false := by decide +kernel

theorem witness_RequestRecordsAreReadBack :
    judgeTransaction (requestRecord (.stageWrite 399 [7]) ++ zeros 2) = .request (.stageWrite 399 [7]) := by
  decide +kernel

theorem witness_ReportRecordsAreReadBack : readReport (reportRecord (.caps capsR) ++ zeros 2) = some (.caps capsR) := by
  decide +kernel

theorem witness_LensImagesAreReadBack : readImage (imageL.image ++ zeros 3) = some imageL := by decide +kernel

theorem witness_DirectiveRecords : (0 : Nat) ≤ 255 ∧ (255 : Nat) ≤ 255 := by decide

/-- A whole record with one byte of padding. -/
theorem whole (kind : Byte) (body : List Byte) (h : body.length ≤ 250) :
    wholeRecord (frameRecord kind body ++ [0]) kind body :=
  ⟨h, [0], rfl⟩

/-- Three bytes hold no whole record. -/
theorem not_whole : ¬ ∃ kind body, wholeRecord (wholeBytes (toBits [1, 2, 3])) kind body := by
  rintro ⟨kind, body, -, padding, h⟩
  have := congrArg List.length h
  simp only [wholeBytes_length, toBits_length, frameRecord, withCheck, be_two, List.length_append, List.length_cons,
    List.length_nil] at this
  omega

/-- A record of a kind with no body and one byte after it, bit by bit. -/
def kindBits (k : Byte) : List Bool := toBits (frameRecord k [] ++ [0])

theorem kindBits_bytes (k : Byte) : wholeBytes (kindBits k) = frameRecord k [] ++ [0] := by
  have h := wholeBytes_toBits (frameRecord k [] ++ [0]) []
  rw [List.append_nil] at h
  exact h.trans (List.append_nil _)

/-- The clauses of the judgement: the falling edge, in and outside a reset; a collection, and bits that end in an unfinished
byte; FORMAT without a whole record; UNKNOWN below and above the request kinds; FORMAT for a STAGE_WRITE of 2 and of 67 body
bytes; a request; a PORT of no action; a transaction abandoned by a reset, and one whole in it. -/
theorem witness_RigControlTransactions :
    (State.reset.rcp.selLow = false ∧ State.reset.isHeld = false ∧ State.reset.rcpServes ∧
      held.rcp.selLow = false ∧ held.isHeld = true) ∧
      (∀ b ∈ wholeBytes [false, false, false, false, false, false, false, false, true], b = 0) ∧
      ((∃ b ∈ wholeBytes (toBits [1, 2, 3]), b ≠ 0) ∧
        ¬ ∃ kind body, wholeRecord (wholeBytes (toBits [1, 2, 3])) kind body) ∧
      (∀ k : Byte, k ≠ 0 → (∃ b ∈ wholeBytes (kindBits k), b ≠ 0) ∧ wholeRecord (wholeBytes (kindBits k)) k []) ∧
      (¬ (0x61 ≤ (0x60 : Byte).toNat ∧ (0x60 : Byte).toNat ≤ 0x71)) ∧
      (¬ (0x61 ≤ (0x72 : Byte).toNat ∧ (0x72 : Byte).toNat ≤ 0x71)) ∧
      (0x61 ≤ (0x6A : Byte).toNat ∧ (0x6A : Byte).toNat ≤ 0x71 ∧ ¬ requestLengthAllowed 0x6A 2 ∧
        ¬ requestLengthAllowed 0x6A 67) ∧
      (0x61 ≤ (0x71 : Byte).toNat ∧ (0x71 : Byte).toNat ≤ 0x71 ∧ requestLengthAllowed 0x71 0) ∧
      requestCommand .reset 1 = some (.reset 1) ∧ requestCommand (.port 0 2) 1 = none ∧
      abandoned.rcp.selLow = true ∧ abandoned.rcp.txn = none ∧ abandoned.rcp.sent.length = 12 := by
  refine ⟨⟨rfl, rfl, reset_serves, by decide +kernel, by decide +kernel⟩, by decide +kernel,
    ⟨⟨1, by decide +kernel, by decide⟩, not_whole⟩, fun k hk => ⟨⟨k, ?_, hk⟩, ?_⟩,
    by decide, by decide, ⟨by decide, by decide, ?_, ?_⟩, ⟨by decide, by decide, rfl⟩, rfl, rfl, ?_, ?_, ?_⟩
  · rw [kindBits_bytes]
    exact List.mem_append_left _ (List.mem_cons_self ..)
  · rw [kindBits_bytes]
    exact whole k [] (by decide)
  all_goals first | decide +kernel | (change ¬ (3 ≤ _ ∧ _ ≤ 66); decide)

theorem witness_QueryAnswers :
    (State.reset.rcpServes ∧ State.reset.lts.slots.length = 8 ∧ State.reset.ae.agreement = none) ∧
      agreed.rcpServes ∧ agreed.lts.slots.length = 8 ∧ agreed.ae.agreement = some deal :=
  ⟨⟨reset_serves, rfl, rfl⟩, agreed_serves, rfl, rfl⟩

theorem witness_ClearNoticesRequests :
    State.reset.rcpServes ∧ 256 ≤ (0x100 : BitVec 16).toNat ∧ (0xFF : BitVec 16).toNat < 256 :=
  ⟨reset_serves, by decide, by decide⟩

theorem witness_NoticesLeaveOnlyWhenNamed :
    exec (.clearNotices 0x80 0) State.reset = .next (run (.clearNotices 0x80 0) State.reset) ∧
      hasNotice State.reset.rcp.notices .resetSeen = true ∧
      hasNotice (run (.clearNotices 0x80 0) State.reset).rcp.notices .resetSeen = false :=
  ⟨rfl, by decide, by decide +kernel⟩

theorem witness_ResetsComeIntoForce :
    (∃ n, 1000 ≤ n ∧ Instr.pinReset 1000 = .pinReset n) ∧ 999 < 1000 ∧ agreed.rcpServes ∧
      (run (.rcpTransactionStart 5) agreed).rcpServes :=
  ⟨⟨1000, by decide, rfl⟩, by decide, agreed_serves, begun_serves⟩

/-- A pin reset in force alone, and with a power-on reset. -/
theorem witness_ResetsAreReleased :
    (held.heldSound ∧ held.resets.has .pin = true ∧ ∀ k, k ≠ ResetKind.pin → held.resets.has k = false) ∧
      (run .powerOnReset held).heldSound ∧ (run .powerOnReset held).resets.has .pin = true ∧
      (run .powerOnReset held).resets.has .powerOn = true := by
  refine ⟨⟨fun _ => by decide +kernel, by decide +kernel, ?_⟩, fun _ => by decide +kernel, by decide +kernel,
    by decide +kernel⟩
  intro k hk
  cases k
  · decide +kernel
  · exact absurd rfl hk
  · decide +kernel

theorem witness_OfferedRecordsQueueOrDrop : (queued 63).pq.queue.length < 64 ∧ 64 ≤ (queued 64).pq.queue.length := by
  simp [queued, State.mapPq]

/-- The falling edge, in and outside a reset; reads of a head and of EMPTY, begun and whole; a read begun in a reset, one
abandoned by it, and one whole in it. -/
theorem witness_PairPortReads :
    ((queued 1).pq.selLow = false ∧ (queued 1).isHeld = false ∧ held.pq.selLow = false ∧ held.isHeld = true) ∧
      (∃ q, (run (.pairReadStart 9) (queued 1)).pq.selLow = true ∧
        (run (.pairReadStart 9) (queued 1)).pq.read = some ⟨some q, 1⟩) ∧
      ((queued 0).pq.selLow = false ∧ (queued 0).isHeld = false ∧ none = (queued 0).pq.queue.head?) ∧
      ((run (.pairReadStart 0) held).pq.selLow = true ∧ (run (.pairReadStart 0) held).pq.read = none) ∧
      abandoned.pq.selLow = true ∧ abandoned.pq.read = none ∧ abandoned.pq.sent.length = 3 := by
  refine ⟨⟨rfl, rfl, ?_, ?_⟩, ⟨_, ?_, rfl⟩, ⟨rfl, rfl, rfl⟩, ⟨?_, ?_⟩, ?_, ?_, ?_⟩ <;> decide +kernel

/-- The take may start on FREE, and on REF with a P the agreement allows; not in HOLDOVER, and not without AGREED eyes. -/
theorem witness_RollStartsTake :
    (agreed.rcpServes ∧ agreed.rollAllowed ∧ agreed.cg.source = .free ∧ agreed.ae.agreement = some deal ∧
      ∀ l ∈ agreed.lts.slots, l.pending = none) ∧
      (onRef .locked agreed).rcpServes ∧ (onRef .locked agreed).rollAllowed ∧ (onRef .locked agreed).cg.source = .ref ∧
      ¬ (onRef .holdover agreed).rollAllowed ∧ ¬ State.reset.rollAllowed := by
  refine ⟨⟨agreed_serves, ⟨rfl, both_eyes rfl rfl, fun h => absurd h (by decide)⟩, rfl, rfl, by decide⟩, ⟨rfl, by decide⟩,
    ⟨rfl, both_eyes rfl rfl, fun _ => ⟨rfl, 4000000, deal, rfl, rfl, by decide +kernel, by decide +kernel⟩⟩, rfl, ?_, ?_⟩
  · rintro ⟨-, -, h⟩
    exact absurd (h rfl).1 (by decide)
  · rintro ⟨-, h, -⟩
    exact absurd (h .left) (by decide)

theorem witness_RateRequests :
    (agreed.rcpServes ∧ agreed.cg.source = .free) ∧ (onRef .locked agreed).rcpServes ∧
      (onRef .locked agreed).cg.source = .ref :=
  ⟨⟨agreed_serves, rfl⟩, ⟨rfl, by decide⟩, rfl⟩

theorem witness_SourceRequests :
    (State.reset.rcpServes ∧ (2 : Byte) ≠ 0 ∧ (2 : Byte) ≠ 1 ∧ State.reset.cg.rig = .setup ∧
      State.reset.cg.source = .free ∧ State.reset.cg.ref = .off) ∧
      (marked.rcpServes ∧ marked.cg.rig ≠ .setup) ∧ (onRef .locked State.reset).rcpServes ∧
      (onRef .locked State.reset).cg.rig = .setup ∧ (onRef .locked State.reset).cg.source = .ref :=
  ⟨⟨reset_serves, by decide, by decide, rfl, rfl, rfl⟩, ⟨marked_serves, by decide +kernel⟩, ⟨rfl, by decide⟩, rfl, rfl⟩

/-- No ramp; a ramp at its first and at its last step; an agreement. -/
theorem witness_PlanRatesAndPeriods :
    Cadence.atReset.ramp = none ∧
      (∃ r : Ramp, r = ⟨24000, 48000, 0, 4⟩ ∧ ({ Cadence.atReset with ramp := some r } : Cadence).ramp = some r ∧
        r.k < r.marks ∧ r.k + 1 < r.marks) ∧
      (∃ r : Ramp, r = ⟨24000, 48000, 3, 4⟩ ∧ r.k < r.marks ∧ r.k + 1 = r.marks) ∧
      Cadence.atReset.source = .free ∧ 1000 ≤ deal.ceiling ∧ deal.ceiling ≤ 240000 ∧ deal.floor ≤ 100000000 := by
  refine ⟨rfl, ⟨_, rfl, rfl, by decide, by decide⟩, ⟨_, rfl, by decide, by decide⟩, rfl, ?_⟩
  decide +kernel

/-- A held DISCARD in a take, with its eye bound to the slot. -/
theorem held_storeSound : (holding (some .discard) marked).storeSound ∧ (holding (some .discard) planned).storeSound := by
  constructor <;>
    refine storeSound_of _ (some .discard) (.inr rfl) ?_ ?_ ?_ ?_ (fun h => absurd ?_ h) (bound_of _ (both_eyes ?_ ?_)) <;>
      decide +kernel

theorem witness_CutEndsTake :
    (agreed.rcpServes ∧ agreed.cg.rig ≠ .rolling) ∧ (marked.rcpServes ∧ marked.cg.rig = .rolling ∧
      ∀ l ∈ marked.lts.slots, l.pending = none) ∧
      (∃ s, s = holding (some .discard) marked ∧ s.rcpServes ∧ s.cg.rig = .rolling ∧ s.storeSound ∧
        s.lts.binding.get .left = some 2 ∧ (s.lts.slot 2).pending ≠ none) :=
  ⟨⟨agreed_serves, by decide⟩, ⟨marked_serves, by decide +kernel, by decide +kernel⟩,
    _, rfl, ⟨by decide +kernel, by decide +kernel⟩, by decide +kernel, held_storeSound.1, by decide +kernel, by decide +kernel⟩

/-- The present instant set. -/
def at_ (now : Time) (s : State) : State := { s with timebase := now }

/-- An edge has come before the event of the mark at 1,000,000. -/
def early (s : State) : State := run .refinEdge (at_ 900000 (onRef .locked s))

/-- A plan prepared for the first mark, with a change held, and no slot or pulse yet; the same with source REF, and with an
edge before the event. -/
theorem witness_RollingMarksNumberAndPlan :
    ((onRef .locked planned).cg.source = .ref ∧ (onRef .locked planned).cg.window = some ⟨1000000, 500000, none⟩ ∧
      (onRef .locked planned).cg.nextMark = some 1000000 ∧ (onRef .locked planned).cg.period = some 4000000) ∧
    ((early planned).cg.source = .ref ∧ (early planned).cg.nextMark = some 1000000 ∧
      (early planned).cg.window.map RefWindow.mark = some 4984375 ∧ (early planned).tp.prepared.isSome = true) ∧
    ∃ s, s = holding (some .discard) planned ∧ s.isHeld = false ∧ s.cg.rig = .rolling ∧ s.cg.leadOwed = false ∧
      s.cg.nextMark = some 4166667 ∧ s.tp.inProgress = none ∧ s.tp.prepared.isSome = true ∧
      s.ae.agreement = some deal ∧ s.storeSound ∧ s.listsSound ∧ s.pulsesSound := by
  refine ⟨by decide +kernel, by decide +kernel, _, rfl, by decide +kernel, by decide +kernel, by decide +kernel,
    by decide +kernel, by decide +kernel, by decide +kernel, by decide +kernel, held_storeSound.2, ?_, ?_⟩
  · have hw : (holding (some .discard) planned).pe.window = [] := by decide +kernel
    have hp : (holding (some .discard) planned).tp.pulses = ⟨[], []⟩ := by decide +kernel
    have ht : (holding (some .discard) planned).pe.triggers = ⟨[], []⟩ := by decide +kernel
    have hr : (holding (some .discard) planned).cg.rig = .rolling := by decide +kernel
    have hd : (holding (some .discard) planned).ae.frame.depth = 4 := by decide +kernel
    refine ⟨⟨by omega, by omega, by simp [hw], by simp [hw], by simp [hr], by simp [hr]⟩,
      by simp [State.marksConsecutive, hw], ?_⟩
    exact both_eyes ⟨by simp [hp, PerEye.get], by simp [ht, PerEye.get], by simp [hp, PerEye.get], by simp [ht, PerEye.get]⟩
      ⟨by simp [hp, PerEye.get], by simp [ht, PerEye.get], by simp [hp, PerEye.get], by simp [ht, PerEye.get]⟩
  · have hr : (holding (some .discard) planned).cg.rig = .rolling := by decide +kernel
    have hn : (holding (some .discard) planned).tp.inProgress = none := by decide +kernel
    have hi : ∀ e, ((holding (some .discard) planned).eye e).state.inTake = true :=
      both_eyes (by decide +kernel) (by decide +kernel)
    exact ⟨fun h => absurd hr h, fun p h => absurd h (by simp [hn]), fun _ _ e _ _ => hi e,
      fun e h => absurd (hi e) (by simp [h])⟩

theorem drained_sound (k : Nat) (h : k < 4) : (drained k).windowSound := by
  have hd : (drained k).ae.frame.depth = 4 := by
    change draining.ae.frame.depth = 4
    decide +kernel
  have hw : draining.pe.window.length = 1 := by decide +kernel
  obtain ⟨slot, hs⟩ := List.length_eq_one_iff.mp hw
  have hp : (drained k).pe.window = [{ slot with age := k }] := by simp [drained, hs]
  have hr : (drained k).cg.rig = .draining := by
    change draining.cg.rig = .draining
    decide +kernel
  have hc : (drained k).cg.drainCount = k := rfl
  refine ⟨by omega, by omega, ?_, ?_, ?_, ?_⟩
  · simp [hp]
  · simp [hp, hd, h]
  · simp [hr]
  · intro _
    simp [hp, hd, hc, h]

/-- The last drain mark of a rig whose left eye restarted and did not rejoin. -/
def rejoining : State :=
  { drained 3 with eyes := (drained 3).eyes.set .left { (drained 3).eyes.left with state := .held } }

/-- A setup reference mark, with and without an edge before it; a lead mark, with and without a held change; a drain mark
short of the last; and the last, with both eyes AGREED, with one HELD, and with one that holds no CAPS. -/
theorem witness_UnnumberedMarks :
    ((early State.reset).cg.rig = .setup ∧ (early State.reset).cg.nextMark = some 1000000 ∧
      (early State.reset).cg.window.map RefWindow.mark = some 4984375 ∧ State.reset.cg.source = .free) ∧
      ((∀ e, ((drained 3).eye e).state = .agreed) ∧ rejoining.windowSound ∧ rejoining.eyes.left.caps.isSome = true ∧
        rejoining.eyes.right.caps.isSome = true ∧ (rejoining.eye .left).state ≠ .agreed ∧
        rejoining.cg.drainCount + 1 = rejoining.ae.frame.depth) ∧
      (∃ s : State, s = { rejoining with eyes := rejoining.eyes.set .left { rejoining.eyes.left with caps := none } } ∧
        (s.eye .left).caps = none) ∧
    ((onRef .locked State.reset).isHeld = false ∧ (onRef .locked State.reset).cg.nextMark = some 1000000 ∧
      (onRef .locked State.reset).cg.rig = .setup) ∧
      (∃ s, s = run (.roll 0) (onRef .locked agreed) ∧ s.isHeld = false ∧ s.cg.nextMark = some 1000000 ∧
        s.cg.rig = .rolling ∧ s.cg.leadOwed = true ∧ s.ae.agreement = some deal ∧ s.cg.source = .ref ∧
        s.cg.period = some 4000000) ∧
      (∃ s, s = holding (some .discard) (run (.roll 0) (onRef .locked agreed)) ∧ s.cg.leadOwed = true ∧
        s.cg.nextMark = some 1000000 ∧ s.storeSound) ∧
      ((drained 2).isHeld = false ∧ (drained 2).cg.nextMark = some 8333334 ∧ (drained 2).cg.rig = .draining ∧
        (drained 2).windowSound ∧ (drained 2).cg.drainCount + 1 < (drained 2).ae.frame.depth) ∧
      (drained 3).windowSound ∧ (drained 3).cg.drainCount + 1 = (drained 3).ae.frame.depth := by
  refine ⟨?_, ⟨both_eyes ?_ ?_, drained_sound 3 (by decide), ?_⟩, ⟨_, rfl, rfl⟩, ⟨rfl, rfl, rfl⟩, ⟨_, rfl, ?_⟩,
    ⟨_, rfl, ?_, ?_, storeSound_of _ (some .discard) (.inr rfl) ?_ ?_ ?_ ?_ (fun h => absurd ?_ h)
      (bound_of _ (both_eyes ?_ ?_))⟩, ⟨?_, ?_, ?_, drained_sound 2 (by decide), ?_⟩, drained_sound 3 (by decide), ?_⟩
  all_goals decide +kernel

theorem witness_OnlyRollingMarksCount : exec .rollingMark planned = .next marked := by
  simp only [exec, execRollingMark, marked, run]
  cases planned.dueMark .rolling <;> rfl

/-- The first edge; an interval out of range by one tick; one that fails the comparison; good ones at its limit, short of the
third and the third. -/
theorem witness_SeekingEdges :
    ((seeking 0 0 none).cg.ref = .seeking ∧
      ({ seeking 0 0 none with cg := { (seeking 0 0 none).cg with seek := ⟨none, none, 0⟩ } } : State).cg.seek.lastEdge
        = none) ∧
      (∀ n g, (seeking n g (some 4000000)).cg.ref = .seeking ∧ (seeking n g (some 4000000)).cg.seek.lastEdge = some 0 ∧
        (seeking n g (some 4000000)).cg.seek.lastGood.isSome = true) ∧
      (399999 = ((seeking 399999 2 (some 4000000)).timebase - 0).toNat ∧ ¬ (400000 ≤ 399999 ∧ 399999 ≤ 100000000)) ∧
      (4020001 = ((seeking 4020001 2 (some 4000000)).timebase - 0).toNat ∧
        4000000 < 200 * ((4020001 : Int) - 4000000).natAbs) ∧
      (4020000 = ((seeking 4020000 1 (some 4000000)).timebase - 0).toNat ∧
        200 * ((4020000 : Int) - 4000000).natAbs ≤ 4000000 ∧ (seeking 4020000 1 (some 4000000)).cg.seek.good < 2 ∧
        2 ≤ (seeking 4020000 2 (some 4000000)).cg.seek.good) := by
  refine ⟨⟨rfl, rfl⟩, fun _ _ => ⟨rfl, rfl, rfl⟩, ?_, ?_, ?_⟩ <;> decide +kernel

/-- An edge one tick outside the window; at its boundary before and after the mark's event, LOCKED and HOLDOVER; the window
open and issued. -/
theorem witness_LockedReference :
    ((onRef .locked State.reset).cg.window = some ⟨1000000, 500000, none⟩ ∧
      (onRef .locked State.reset).cg.period = some 4000000 ∧ (onRef .locked State.reset).cg.ref = .locked ∧
      500000 < (timeDiff (at_ 499999 (onRef .locked State.reset)).timebase 1000000).natAbs) ∧
      ((timeDiff (at_ 500000 (onRef .locked State.reset)).timebase 1000000).natAbs ≤ 500000) ∧
      ((timeDiff (at_ 1500000 (issued (some 3) (onRef .holdover agreed))).timebase 1000000).natAbs ≤ 500000 ∧
        (issued (some 3) (onRef .holdover agreed)).cg.ref = .holdover ∧
        (issued (some 3) (onRef .holdover agreed)).cg.window = some ⟨1000000, 500000, some ⟨4000000, some 3⟩⟩ ∧
        (issued (some 3) (onRef .holdover agreed)).cg.period = some 4000000) ∧
      (∃ s : State, s = ({ onRef .locked agreed with
        cg := { (onRef .locked agreed).cg with lock := ⟨some 1000, 1, false⟩ } } : State) ∧ s.cg.ref = .locked ∧
        s.cg.lock.prevEdge = some 1000) := by
  refine ⟨?_, ?_, ?_, ⟨_, rfl, rfl, rfl⟩⟩ <;> decide +kernel

/-! The eye ports -/

theorem agreed_eyes_serve : ∀ e, agreed.eyeServes e :=
  both_eyes ⟨rfl, rfl, rfl, fun h => absurd h (by decide)⟩ ⟨rfl, rfl, rfl, fun h => absurd h (by decide)⟩

/-- A transaction begun by the falling edge is served too. -/
theorem begun_eye_serves : (run (.eyeTransactionStart .left 5) agreed).eyeServes .left :=
  ⟨by decide +kernel, by decide +kernel, by decide +kernel, fun _ => ⟨_, rfl, by decide +kernel⟩⟩

/-- An ignored transaction whose eye has become LISTENING since its falling edge. -/
def ignored : State :=
  (run (.eyeTransactionStart .left 4) State.reset).mapEye .left fun p =>
    { p with state := .listening, buffer := some (.wait .awaitCaps), fresh := true }

/-- In and outside a reset, of an attached eye and of one that is not; a transaction that a reset abandoned after 4 bits and
one that a PORT disable did; and one that was ignored and has outlasted its eye's debounce. -/
theorem witness_EyeTransactionsStart :
    (ignored.eyes.left.selLow = true ∧ ignored.eyes.left.txn = some ⟨false, 0, 0, false⟩ ∧
      ignored.eyes.left.state.attached = true) ∧
    (∀ e, (held.eye e).selLow = false) ∧ held.isHeld = true ∧
      (∀ e, (agreed.eye e).selLow = false ∧ (agreed.eye e).state.attached = true ∧ (agreed.eye e).enabled = true) ∧
      agreed.isHeld = false ∧ (State.reset.eyes.left.selLow = false ∧ State.reset.eyes.left.state.attached = false) ∧
      ((abandoned.eye .left).selLow = true ∧ (abandoned.eye .left).txn = none ∧
        (abandoned.eye .left).sent = [false, true, false, false]) ∧
      (∃ s, s = run (.portDisable 0 0) (run (.eyeTransactionStart .left 4) agreed) ∧ (s.eye .left).selLow = true ∧
        (s.eye .left).txn = none) ∧
      reportCommand .left .idle 0 = .idle .left 0 :=
  ⟨by decide +kernel, both_eyes (by decide +kernel) (by decide +kernel), by decide +kernel,
    both_eyes ⟨rfl, rfl, rfl⟩ ⟨rfl, rfl, rfl⟩, rfl, ⟨rfl, rfl⟩, by decide +kernel, ⟨_, rfl, by decide +kernel⟩, rfl⟩

theorem fired_eye_serves : fired.eyeServes .left :=
  ⟨by decide +kernel, by decide +kernel, by decide +kernel, fun h => absurd h (by decide +kernel)⟩

/-- CAPS of no offer and of 12; an ACCEPT of a PROPOSED eye; a FRAME of a RUNNING one with an entry. -/
theorem witness_ExpectedReportsPlaced :
    (agreed.eyeServes .left ∧ (agreed.eye .left).slot = none ∧ (List.replicate 12 (⟨0, 0, 0, 0, 0, 0, 0⟩ : RawOffer)).length ≤ 12) ∧
      (proposed.eyeServes .right ∧ (proposed.eye .right).slot = none ∧ (proposed.eye .right).state = .proposed) ∧
      fired.eyeServes .left ∧ (fired.eye .left).slot = none ∧ (fired.eye .left).state = .running ∧
      fired.pe.triggers.get .left ≠ [] :=
  ⟨⟨agreed_eyes_serve .left, rfl, by decide⟩, ⟨⟨rfl, rfl, rfl, fun h => absurd h (by decide)⟩, rfl, rfl⟩,
    fired_eye_serves, by decide +kernel, by decide +kernel, by decide +kernel⟩

/-- Each cause of a discard, one at a time. -/
theorem witness_RefusedReportsCounted :
    (∀ e, agreed.eyeServes e) ∧ readReport (wholeBytes (toBits [0x2F, 0, 0])) = none ∧
      12 < (List.replicate 13 (⟨0, 0, 0, 0, 0, 0, 0⟩ : RawOffer)).length ∧ (agreed.eye .left).state ≠ .proposed ∧
      agreed.pe.triggers.get .left = [] ∧
      ((withSlot .left (.accept 0) fired).eyeServes .left ∧
        ((withSlot .left (.accept 0) fired).eye .left).slot.isSome = true) ∧
      (proposed.eyeServes .left ∧ (proposed.eye .left).state ≠ .agreed ∧ (proposed.eye .left).state ≠ .running) ∧
      ((takenWith 255).eyeServes .left ∧ ((takenWith 255).eye .left).takenFull = true ∧
        ((takenWith 255).eye .left).lost = 0 ∧ ((takenWith 254).eye .left).takenFull = false) :=
  ⟨agreed_eyes_serve, by decide +kernel, by decide, by decide, rfl,
    ⟨⟨by decide +kernel, by decide +kernel, by decide +kernel, fun h => absurd h (by decide +kernel)⟩, by decide +kernel⟩,
    ⟨⟨rfl, rfl, rfl, fun h => absurd h (by decide)⟩, by decide, by decide⟩,
    ⟨⟨by decide +kernel, by decide +kernel, by decide +kernel, fun h => absurd h (by decide +kernel)⟩, by decide +kernel,
      by decide +kernel, by decide +kernel⟩⟩

theorem witness_IdleReportsDropped :
    (∀ e, agreed.eyeServes e) ∧ ¬ ∃ kind body, wholeRecord (wholeBytes (toBits [1, 2, 3])) kind body :=
  ⟨agreed_eyes_serve, not_whole⟩

def settling : State := run (.presRise .left) State.reset

theorem witness_PresenceEdges :
    (State.reset.isHeld = false ∧ State.reset.eyes.left.pres = false ∧ State.reset.eyes.left.state = .detached ∧
      State.reset.eyes.left.enabled = true) ∧
      (run (.portDisable 0 0) State.reset).eyes.left.enabled = false ∧
      ((run (.presFall .left) agreed).eyes.left.pres = false ∧
        (run (.presFall .left) agreed).eyes.left.state.attached = true) ∧
      (∃ s, s = run (.presRise .left) (run (.portDisable 0 0) State.reset) ∧ s.eyes.left.pres = true ∧
        s.eyes.left.state = .detached) ∧
      (settling.eyes.left.pres = true ∧ settling.eyes.left.state = .settling ∧ settling.eyes.left.timer = .high 0) ∧
      (agreed.eyes.left.pres = true ∧ agreed.eyes.left.state.attached = true) ∧ held.isHeld = true := by
  refine ⟨?_, ?_, ?_, ⟨_, rfl, ?_⟩, ?_, ?_, ?_⟩ <;> decide +kernel

theorem witness_PortRequests :
    (agreed.rcpServes ∧ 1 < (2 : Byte).toNat ∧ agreed.eyes.right.enabled = true) ∧
      (State.reset.rcpServes ∧ State.reset.eyes.left.enabled = true ∧ State.reset.eyes.left.state.attached = false) ∧
      (run (.portDisable 0 0) State.reset).rcpServes ∧ (run (.portDisable 0 0) State.reset).eyes.left.enabled = false ∧
      (run (.portDisable 0 0) State.reset).eyes.left.state = .detached :=
  ⟨⟨agreed_serves, by decide, rfl⟩, ⟨reset_serves, rfl, rfl⟩, ⟨by decide +kernel, by decide +kernel⟩, by decide +kernel,
    by decide +kernel⟩

/-- By a detach at the last tick of its count, and by a PORT disable; the other eye with CAPS and without. -/
theorem witness_LeavingInSetup :
    (∃ s : State, s = { agreed with eyes := agreed.eyes.set .left { eyeIn .agreed capsL with pres := false, timer := .low 99999 } } ∧
      s.cg.rig = .setup ∧ s.pe.window = [] ∧ (s.eye .left).state.attached = true ∧ (s.eye .left).pres = false ∧
      (s.eye .left).timer = .low 99999 ∧ (s.eye .right).caps.isSome = true) ∧
      (agreed.cg.rig = .setup ∧ agreed.pe.window = [] ∧ (agreed.eye .right).state.attached = true ∧ agreed.rcpServes ∧
        (agreed.eye .right).enabled = true) ∧
      ∃ s : State, s = { agreed with eyes := agreed.eyes.set .left { eyeIn .listening capsL with caps := none } } ∧
        (s.eye .left).caps = none ∧ (s.eye .right).state.attached = true :=
  ⟨⟨_, rfl, rfl, rfl, rfl, rfl, rfl, by decide +kernel⟩, ⟨rfl, rfl, rfl, agreed_serves, rfl⟩, ⟨_, rfl, rfl, rfl⟩⟩

/-- The left eye about to be detached; the other eye of the take, and not. -/
def dropping : State :=
  { marked with eyes := marked.eyes.set .left { marked.eyes.left with pres := false, timer := .low 99999 } }

def droppingAlone : State :=
  { dropping with eyes := dropping.eyes.set .right { eyeIn .held capsR with lost := 0 } }

/-- In ROLLING, an eye of the take beside another and alone, and an eye HELD; a DRAINING rig; a held DISCARD. -/
theorem witness_LeavingDuringTake :
    (draining.rcpServes ∧ draining.cg.rig ≠ .setup ∧ (draining.eye .left).state.attached = true ∧
      (draining.eye .left).enabled = true ∧ (draining.eye .left).state.inTake = true ∧ draining.cg.rig ≠ .rolling) ∧
      (droppingAlone.rcpServes ∧ (droppingAlone.eye .right).state.attached = true ∧
        (droppingAlone.eye .right).enabled = true ∧ (droppingAlone.eye .right).state.inTake = false) ∧
      (holding (some .discard) marked).storeSound ∧
    (dropping.cg.rig = .rolling ∧ (dropping.eye .left).state.inTake = true ∧ (dropping.eye .left).pres = false ∧
      (dropping.eye .left).timer = .low 99999 ∧ (dropping.eye .right).state.inTake = true ∧
      dropping.tp.inProgress.isSome = true) ∧
      (droppingAlone.cg.rig = .rolling ∧ (droppingAlone.eye .left).state.inTake = true ∧
        (droppingAlone.eye .left).timer = .low 99999 ∧ (droppingAlone.eye .right).state.inTake = false) ∧
      (marked.rcpServes ∧ (marked.eye .right).enabled = true ∧ (marked.eye .right).state.inTake = true) ∧
      planned.cg.rig = .rolling ∧ (planned.eye .left).state.inTake = true ∧ planned.tp.prepared.isSome = true := by
  refine ⟨⟨⟨?_, ?_⟩, ?_⟩, ⟨⟨?_, ?_⟩, ?_⟩, held_storeSound.1, ?_, ?_, ⟨marked_serves, ?_⟩, ?_⟩ <;> decide +kernel

/-- One pulse; a later mark's pulse due first; two at one tick; none. -/
theorem witness_TriggerPulsesFire :
    (marked.tp.pulses.get .left = [] ++ ⟨0, 4191667⟩ :: [] ∧ (marked.eye .left).state.inTake = true) ∧
      (crossing.tp.pulses.get .left = [⟨0, 8400000⟩] ++ ⟨1, 8300000⟩ :: [⟨2, 8300000⟩] ∧
        (crossing.eye .left).state.inTake = true ∧
        (∀ q ∈ [(⟨0, 8400000⟩ : Pulse)], timeDiff 8300000 crossing.timebase < timeDiff q.time crossing.timebase) ∧
        ∀ q ∈ [(⟨2, 8300000⟩ : Pulse)], timeDiff 8300000 crossing.timebase ≤ timeDiff q.time crossing.timebase) ∧
      marked.tp.pulses.get .right = [] ∧
      (proposed.eye .left).state.inTake = false ∧ (marked.eye .right).trig = some 4166667 := by
  decide +kernel

/-! Mode agreement -/

def profile0 : RawProfile := ⟨0, 1, 255, 240000, 1, 1024, 8, 10000000, 0, 0, 0⟩

theorem profile0_inRange : profileInRange profile0 :=
  ⟨by decide, by decide, by decide, ⟨by decide, by decide⟩, by decide, ⟨by decide, by decide⟩, by decide⟩

theorem profile9_not_inRange : ¬ profileInRange { profile0 with depth := 9 } := by
  rintro ⟨-, -, -, -, -, ⟨-, h⟩, -⟩
  exact absurd h (by decide)

/-- Outside SETUP; a depth of 9; every field at its largest value, with both, one and no CAPS held. -/
theorem witness_ProfileRequests :
    (marked.rcpServes ∧ marked.cg.rig ≠ .setup) ∧ (agreed.rcpServes ∧ agreed.cg.rig = .setup) ∧
      ¬ profileInRange { profile0 with depth := 9 } ∧ profileInRange profile0 ∧
      (agreed.eyes.left.caps = judgeCaps capsL ∧ agreed.eyes.right.caps = judgeCaps capsR ∧
        (judgeCaps capsL).isSome = true ∧ (judgeCaps capsR).isSome = true) ∧
      (State.reset.rcpServes ∧ State.reset.cg.rig = .setup ∧ State.reset.eyes.left.caps = none ∧
        State.reset.eyes.right.caps = none) ∧
      ∃ s : State, s = { agreed with eyes := agreed.eyes.set .left { eyeIn .listening capsL with caps := none } } ∧
        s.rcpServes ∧ (s.eye .right).caps.isSome = true ∧ (s.eye .left).caps = none :=
  ⟨⟨marked_serves, by decide +kernel⟩, ⟨agreed_serves, rfl⟩, profile9_not_inRange, profile0_inRange,
    ⟨rfl, rfl, by decide +kernel, by decide +kernel⟩, ⟨reset_serves, rfl, rfl, rfl⟩,
    ⟨_, rfl, ⟨rfl, by decide⟩, by decide +kernel, rfl⟩⟩

theorem witness_ChoiceTakesPreferredPair :
    choose .atReset [] [offer0] [offer1] = some deal ∧ TakeFrame.atReset.anchor ≤ 1024 ∧
      rateInRange TakeFrame.atReset.rateNeeded ∧ 0 < deal.floor :=
  ⟨by decide +kernel, by decide, ⟨by decide, by decide⟩, by decide +kernel⟩

/-- A CAPS whose blank is too long by one tick. -/
def badCaps : RawCaps := ⟨0, 0, 0, [⟨0, 3, 1250000, 0, 0, 1000001, 60000⟩]⟩

theorem witness_CapsTakenInSetup :
    (∃ s, s = withSlot .right (.caps capsR) (attached .held) ∧ (s.eye .right).slot = some (.caps capsR) ∧
      s.cg.rig = .setup ∧ (judgeCaps capsR).isSome = true ∧ (s.eye .left).caps = judgeCaps capsL ∧
      (judgeCaps capsL).isSome = true) ∧
      (∃ s, s = withSlot .left (.caps badCaps) agreed ∧ (s.eye .left).slot = some (.caps badCaps) ∧ s.cg.rig = .setup ∧
        judgeCaps badCaps = none ∧ (s.eye .right).caps.isSome = true) ∧
      ∃ s, s = withSlot .left (.caps capsL) { State.reset with eyes := ⟨eyeIn .listening capsL, EyePort.atReset false false []⟩ } ∧
        (s.eye .left).slot = some (.caps capsL) ∧ s.cg.rig = .setup ∧ (s.eye .right).caps = none :=
  ⟨⟨_, rfl, rfl, rfl, by decide +kernel, rfl, by decide +kernel⟩, ⟨_, rfl, rfl, rfl, by decide +kernel, by decide +kernel⟩,
    ⟨_, rfl, rfl, rfl, rfl⟩⟩

/-- A RUNNING eye that restarts, beside another of the take and alone: with an offer that matches the record, with none, and
with an invalid CAPS; and an eye that is HELD. -/
theorem witness_CapsTakenDuringTake :
    (∃ s, s = withSlot .right (.caps capsR) marked ∧ (s.eye .right).slot = some (.caps capsR) ∧ s.cg.rig ≠ .setup ∧
      (s.eye .right).state.inTake = true ∧ s.ae.agreement = some deal ∧ s.tp.inProgress.isSome = true ∧
      (s.eye .left).state.inTake = true) ∧
      (∃ s, s = withSlot .left (.caps capsL) droppingAlone ∧ (s.eye .left).slot = some (.caps capsL) ∧
        s.cg.rig = .rolling ∧ (s.eye .left).state.inTake = true ∧ (s.eye .right).state.inTake = false) ∧
      (∃ s, s = withSlot .right (.caps capsR) droppingAlone ∧ (s.eye .right).slot = some (.caps capsR) ∧
        s.cg.rig ≠ .setup ∧ (s.eye .right).state.inTake = false) ∧
      (∃ c, judgeCaps capsR = some c ∧ offer1 ∈ c.offers ∧ offer1.matchesStored deal .right ∧
        ∀ o' ∈ c.offers, o'.matchesStored deal .right → offer1.index ≤ o'.index) ∧
      (∃ c, judgeCaps capsL = some c ∧ ∀ a, some deal = some a → ∀ o ∈ c.offers, ¬ o.matchesStored a .right) ∧
      judgeCaps badCaps = none := by
  have hl : judgeCaps capsL = some ⟨some 70112, ⟨true, false, false⟩, [offer0, ⟨1, ⟨7, 2400000, none, 80000, 30000⟩⟩]⟩ := by
    decide +kernel
  have hr : judgeCaps capsR = some ⟨some 81440, ⟨true, false, false⟩,
      [offer0, offer1, ⟨2, ⟨7, 2400000, some 2400000, 80000, 30000⟩⟩]⟩ := by
    decide +kernel
  refine ⟨⟨_, rfl, rfl, by decide +kernel⟩, ⟨_, rfl, rfl, by decide +kernel⟩, ⟨_, rfl, rfl, by decide +kernel⟩,
    ⟨_, hr, by simp, ?_, ?_⟩, ⟨_, hl, ?_⟩,
    by decide +kernel⟩
  · exact ⟨rfl, rfl, rfl, rfl, by decide +kernel⟩
  · intro o' ho hm
    simp only [List.mem_cons, List.not_mem_nil, or_false] at ho
    rcases ho with rfl | rfl | rfl
    · exact absurd hm.2.2.1 (by decide)
    · exact Nat.le_refl _
    · decide
  · intro a ha o ho hm
    simp only [Option.some.injEq] at ha
    subst ha
    simp only [List.mem_cons, List.not_mem_nil, or_false] at ho
    rcases ho with rfl | rfl
    · exact absurd hm.2.2.1 (by decide)
    · exact absurd hm.1 (by decide)

/-- An answer that names the AGREE in force, in SETUP and during a take, and one that names another. -/
theorem witness_AcceptsAndRefuses :
    (∃ s, s = withSlot .right (.refuse 1) proposed ∧ (s.eye .right).slot = some (.refuse 1) ∧
      (s.eye .right).state = .proposed ∧ s.ae.agreement = some deal ∧ deal.index.get .right = (1 : Byte).toNat ∧
      s.cg.rig = .setup ∧ s.eyes.left.caps.isSome = true ∧ s.eyes.right.caps.isSome = true) ∧
      (∃ s : State, s = withSlot .right (.accept 1) { proposed with cg := { proposed.cg with rig := .draining } } ∧
        (s.eye .right).slot = some (.accept 1) ∧ (s.eye .right).state = .proposed ∧ s.cg.rig ≠ .setup) ∧
      ∃ s, s = withSlot .right (.accept 2) proposed ∧ (s.eye .right).slot = some (.accept 2) ∧
        ¬ ((s.eye .right).state = .proposed ∧ ∃ a, s.ae.agreement = some a ∧ a.index.get .right = (2 : Byte).toNat) := by
  refine ⟨⟨_, rfl, rfl, rfl, rfl, rfl, rfl, by decide +kernel, by decide +kernel⟩, ⟨_, rfl, rfl, rfl, by decide⟩,
    ⟨_, rfl, rfl, ?_⟩⟩
  rintro ⟨-, a, h1, h2⟩
  obtain rfl : deal = a := Option.some.inj h1
  exact absurd h2 (by decide)

/-! Settings, plans, lens tables -/

theorem witness_ShutterAndDemandRequests :
    State.reset.rcpServes ∧ 1 < (2 : Byte).toNat ∧ ((1 : Byte) = 1 ∧ 100000000 = min (max (100000001 : BitVec 32).toNat 100) 100000000) ∧
      ((0 : Byte) = 0 ∧ 1 = min (max (0 : BitVec 32).toNat 1) 36000) ∧ 8 ≤ (8 : Byte).toNat ∧ (7 : Byte).toNat < 8 ∧
      agreed.ae.agreement = some deal :=
  ⟨reset_serves, by decide, by decide, by decide, by decide, by decide, rfl⟩

/-- The snapshot of a plan on the deal, with a period, a shutter value and equal blanks of 50,000. -/
def snap (period value : Nat) (mode : ShutterMode) : Snapshot :=
  { agreed.snapshot deal with period := period, shutterMode := mode, shutterValue := value }

theorem witness_PlanExposure :
    (∀ e, 1000 ≤ (snap 1350000 18000 .angle).readout.get e) ∧
      max (snap 1350000 18000 .angle).readout.left (snap 1350000 18000 .angle).readout.right +
        max (snap 1350000 18000 .angle).blank.left (snap 1350000 18000 .angle).blank.right ≤ 1350000 ∧
      (snap 416667 1 .angle).period = 416667 ∧ (snap 416667 1 .angle).shutterMode = .angle ∧
      (snap 4166667 100 .time).period = 4166667 ∧
      max (snap 4166667 100 .time).blank.left (snap 4166667 100 .time).blank.right = 50000 :=
  ⟨both_eyes (by decide +kernel) (by decide +kernel), by decide +kernel, rfl, rfl, rfl, by decide +kernel⟩

theorem witness_OffsetsMeetAndPredictSkew :
    (snap 4166667 18000 .angle).anchor ≤ 1024 ∧ (snap 4166667 18000 .angle).anchor = 512 ∧
      ({ snap 4166667 18000 .angle with anchor := 1024 } : Snapshot).anchor ≤ 1024 ∧
      ({ snap 4166667 18000 .angle with anchor := 0 } : Snapshot).anchor = 0 ∧
      (⟨true, false⟩ : PerEye Bool).get Eye.left.other = false := by
  decide +kernel

theorem witness_SlipKeepsSpacing :
    agreed.cg.source = .free ∧ ((onRef .locked agreed).cg.source = .ref ∧ (onRef .locked agreed).cg.period = some 4000000) ∧
      ((planAt 300000000 2000000 302108333 302083333).included.get .right = true ∧
        (planAt 300000000 2000000 302108333 302083333).snapshot.lastReadout.get .right = some 302083333) :=
  ⟨rfl, ⟨rfl, rfl⟩, rfl, rfl⟩

/-- No plan; a plan with both eyes served, with their previous targets cleared since its start and not; a plan with a table
for one eye. -/
theorem witness_PlansComplete :
    (∃ p, lensed.tp.inProgress = some p ∧ (p.included.get .left = true ∧ (p.snapshot.lens.get .left).table.isSome = true) ∧
      p.included.get .right = true ∧ (p.snapshot.lens.get .right).table = none) ∧
      agreed.tp.inProgress = none ∧
      (∃ p, rolled.tp.inProgress = some p ∧ (p.included.get .left = true ∧ p.departed.get .left = false)) ∧
      rolled.lme.clearMark.get .left = false ∧
      (run (.portDisable 0 0) rolled).lme.clearMark.get .left = true ∧
      (∃ p, (run (.portDisable 0 0) rolled).tp.inProgress = some p ∧
        ¬ (p.included.get .left = true ∧ p.departed.get .left = false)) := by
  refine ⟨⟨_, rfl, by decide +kernel⟩, rfl, ?_, by decide +kernel, by decide +kernel, ?_⟩
  · exact ⟨_, rfl, by decide +kernel, by decide +kernel⟩
  · exact ⟨_, rfl, by decide +kernel⟩

/-- Lengths 0, 1, 64 and 65, and runs that end at byte 399 and pass it; slots 7 and 8. -/
theorem witness_StagingAndReadSlotRequests :
    State.reset.rcpServes ∧ State.reset.lts.staging.length = 400 ∧ 64 < (List.replicate 65 (0 : Byte)).length ∧
      (1 ≤ [(0 : Byte)].length ∧ [(0 : Byte)].length ≤ 64 ∧ 400 < (400 : BitVec 16).toNat + [(0 : Byte)].length ∧
        (399 : BitVec 16).toNat + [(0 : Byte)].length ≤ 400) ∧
      (7 < (8 : Byte).toNat ∧ 64 < (65 : Byte).toNat ∧ (0 : Byte).toNat < 1 ∧
        400 < (337 : BitVec 16).toNat + (64 : Byte).toNat) ∧
      (7 : Byte).toNat ≤ 7 ∧ 1 ≤ (64 : Byte).toNat ∧ (64 : Byte).toNat ≤ 64 ∧
        (336 : BitVec 16).toNat + (64 : Byte).toNat ≤ 400 :=
  ⟨reset_serves, by decide +kernel, by decide, by decide, by decide, by decide, by decide, by decide, by decide⟩

/-- RANGE, BUSY, BAD_TABLE and DUP_LENS; a change that is applied, in SETUP and during a plan, and one that is held. -/
theorem witness_CommitsAndDiscards :
    (∃ s, s = staged rolled ∧ s.rcpServes ∧ s.lts.slots.length = 8 ∧ s.boundByIdentity ∧ s.lts.store ≠ .loading ∧
      readImage s.lts.staging = some imageL ∧ s.tp.inProgress.isSome = true ∧ (∀ e, s.lts.binding.get e = none) ∧
      ∀ j, j < 8 → (s.lts.slot j).identity = none ∧ (s.lts.slot j).pending = none) ∧
    (7 < (8 : Byte).toNat ∧ (7 : Byte).toNat ≤ 7 ∧ State.reset.rcpServes ∧ State.reset.lts.slots.length = 8 ∧
      State.reset.boundByIdentity ∧ State.reset.lts.store = .loading) ∧
      (agreed.rcpServes ∧ agreed.lts.slots.length = 8 ∧ agreed.boundByIdentity ∧
        agreed.lts.store ≠ .loading ∧ readImage agreed.lts.staging = none) ∧
      (∃ s, s = staged (loaded agreed) ∧ s.rcpServes ∧ s.lts.slots.length = 8 ∧
        s.boundByIdentity ∧ s.lts.store ≠ .loading ∧ readImage s.lts.staging = some imageL ∧
        (s.lts.slot 2).identity = some imageL.table.identity ∧
        ¬ (s.cg.rig = .rolling ∧ ∃ e, (s.eye e).state.inTake = true ∧ s.lts.binding.get e = some (2 : Byte).toNat) ∧
        (∀ j, j < 8 → j ≠ (2 : Byte).toNat → (s.lts.slot j).identity ≠ some imageL.table.identity ∧
          ∀ c', (s.lts.slot j).pending = some (.commit c') → c'.table.identity ≠ imageL.table.identity)) ∧
      ∃ s, s = staged (loaded marked) ∧ s.rcpServes ∧ s.lts.slots.length = 8 ∧
        s.boundByIdentity ∧ s.lts.store ≠ .loading ∧
        (s.cg.rig = .rolling ∧ (s.eye .left).state.inTake = true ∧ s.lts.binding.get .left = some (2 : Byte).toNat) := by
  refine ⟨⟨_, rfl, ⟨by decide +kernel, by decide +kernel⟩, by decide +kernel,
      bound_of _ (both_eyes (by decide +kernel) (by decide +kernel)), by decide +kernel, by decide +kernel,
      by decide +kernel, both_eyes (by decide +kernel) (by decide +kernel), by decide +kernel⟩,
    ⟨by decide, by decide, reset_serves, rfl, bound_of _ (both_eyes (by decide +kernel) (by decide +kernel)), rfl⟩,
    ⟨agreed_serves, rfl, bound_of _ (both_eyes (by decide +kernel) (by decide +kernel)), by decide, by decide +kernel⟩,
    ⟨_, rfl, loaded_serves, by decide +kernel, bound_of _ (both_eyes (by decide +kernel) (by decide +kernel)), by decide +kernel,
      by decide +kernel, by decide +kernel, ?_, ?_⟩,
    ⟨_, rfl, loaded_marked_serves, by decide +kernel, bound_of _ (both_eyes (by decide +kernel) (by decide +kernel)), by decide +kernel,
      by decide +kernel⟩⟩
  · rintro ⟨h, -⟩
    exact absurd h (by decide +kernel)
  · have h : ∀ j, j < 8 → j ≠ 2 → ((staged (loaded agreed)).lts.slot j).identity ≠ some imageL.table.identity ∧
        ((staged (loaded agreed)).lts.slot j).pending = none := by
      decide +kernel
    intro j hj hn
    obtain ⟨h1, h2⟩ := h j hj hn
    exact ⟨h1, fun c' hc => by rw [h2] at hc; exact absurd hc (by simp)⟩

/-- The load's four judgements of a place. -/
theorem witness_SavesAndLoads :
    (agreed.rcpServes ∧ 7 < (8 : Byte).toNat ∧ (7 : Byte).toNat ≤ 7 ∧ agreed.lts.store = .ready ∧
      agreed.lts.saving = none) ∧
      (State.reset.rcpServes ∧ State.reset.lts.store ≠ .ready ∧ State.reset.lts.store = .loading ∧
        State.reset.isHeld = false ∧ State.reset.lts.nv.length = 8) ∧
      (run (.save 7 0) agreed).lts.saving.isSome = true ∧
      (byteAt emptyImage 4 = 0 ∧ 7 ≤ emptyImage.length ∧ field emptyImage 5 2 = recordCheck (emptyImage.take 5)) ∧
      (¬ (byteAt [] 4 = 0 ∧ 7 ≤ ([] : List Byte).length ∧ field [] 5 2 = recordCheck ([].take 5)) ∧ readImage [] = none) ∧
      ¬ (byteAt imageL.image 4 = 0 ∧ 7 ≤ imageL.image.length ∧
        field imageL.image 5 2 = recordCheck (imageL.image.take 5)) ∧ readImage imageL.image = some imageL := by
  refine ⟨⟨agreed_serves, by decide, by decide, rfl, rfl⟩, ⟨reset_serves, by decide, rfl, rfl, rfl⟩, ?_, ?_, ?_, ?_⟩ <;>
    decide +kernel

/-- The table of 6.7, its ends, a demand inside a segment and at its start, moves at the slew limit and one past it. -/
theorem witness_ForwardTargets :
    tableL.wf = true ∧ tableL.points.head? = some (50, 1200) ∧ tableL.points.getLast? = some (65535, 52000) ∧
      (tableL.points = [(50, 1200)] ++ (100, 20400) :: (200, 38000) :: [(65535, 52000)] ∧ 100 ≤ 130 ∧ 130 < 200) ∧
      (((5000 : Int) - 1000).natAbs ≤ tableL.slew ∧ tableL.slew < ((5001 : Int) - 1000).natAbs) := by
  decide +kernel

/-- An increasing and a decreasing axis. -/
theorem witness_ReadBackDemands :
    (tableL.wf = true ∧ tableL.points.head? = some (50, 1200) ∧ tableL.points.getLast? = some (65535, 52000) ∧
      1200 < 52000) ∧
      (tableIris.wf = true ∧ tableIris.points.head? = some (0, 60000) ∧ tableIris.points.getLast? = some (1000, 25000) ∧
        25000 < 60000) ∧
      (tableIris.points = [(0, 60000)] ++ (400, 40000) :: (800, 30001) :: [(1000, 25000)] ∧ 30001 < 35000 ∧ 35000 ≤ 40000) ∧
      readBack tableL 25680 = some 130 ∧ readBack tableR 24000 = some 118 := by
  decide +kernel

/-! Pairing -/

/-- A FRAME that matches the first entry, and one that matches none. -/
theorem witness_FramesMatched :
    (∃ s, s = withSlot .left (.frame frame0) fired ∧ (s.eye .left).slot = some (.frame frame0) ∧
      s.pe.triggers.get .left = [] ++ ⟨0, 0⟩ :: [] ∧ (⟨0, 0⟩ : TriggerEntry).trigger = frame0.trigger) ∧
      ∃ s, s = withSlot .left (.frame { frame0 with trigger := 9 }) fired ∧
        (s.eye .left).slot = some (.frame { frame0 with trigger := 9 }) ∧
        ∀ x ∈ s.pe.triggers.get .left, x.trigger ≠ 9 := by
  refine ⟨⟨_, rfl, rfl, by decide +kernel, rfl⟩, ⟨_, rfl, rfl, by decide +kernel⟩⟩

/-- A slot whose parts are in given states. -/
def slotOf (l r : PartState) (skipped : Bool) : PairSlot :=
  let part (st : PartState) : EyePart :=
    ⟨st, false, 0, 0, ⟨false, false, false⟩, false, some ⟨0, 4000, 0, .all none⟩, false⟩
  { fired.openSlot ((planAt 0 2000000 0 0).plan) 0 false false with
    skipped := skipped
    parts := ⟨part l, part r⟩ }

theorem witness_SlotValuesAndRecords :
    ((∀ e, ((slotOf .reported .reported false).parts.get e).state = .reported) ∧
      (slotOf .reported .reported false).parts.left.report = some ⟨0, 4000, 0, .all none⟩ ∧
      (slotOf .reported .reported false).parts.right.report = some ⟨0, 4000, 0, .all none⟩) ∧
      ((slotOf .missing .reported false).parts.get .left).state ≠ .reported ∧
      ((slotOf .absent .absent true).complete = true ∧ (slotOf .absent .absent true).skipped = true) ∧
      ((slotOf .missing .reported false).complete = true ∧ (slotOf .missing .reported false).skipped = false) ∧
      ((slotOf .reported .reported false).complete = true ∧ (slotOf .reported .absent false).complete = true ∧
        ((slotOf .reported .absent false).parts.get Eye.left.other).state = .absent) ∧
      (loaded agreed).storeSound ∧
      (∃ k, (slotOf .reported .reported false).parts.left.report = some k ∧ k.counts.get .focus = none) ∧
      (∃ s : State, s = { loaded agreed with lts := { (loaded agreed).lts with binding := ⟨some 2, some 2⟩ } } ∧
        ∀ e, ∃ j c x, s.lts.binding.get e = some j ∧ (s.lts.slot j).contents = some c ∧
          c.table.axes.get .focus = some x ∧ readBack x 25680 = some 130) := by
  refine ⟨⟨both_eyes rfl rfl, rfl, rfl⟩, by decide, ⟨rfl, rfl⟩, ⟨rfl, rfl⟩, ⟨rfl, rfl, rfl⟩,
    storeSound_of _ none (.inl rfl) ?_ ?_ ?_ ?_ (fun _ => rfl) (bound_of _ (both_eyes ?_ ?_)), ⟨_, rfl, rfl⟩, ⟨_, rfl, ?_⟩⟩
  case refine_7 => exact both_eyes ⟨_, _, _, rfl, rfl, rfl, by decide +kernel⟩ ⟨_, _, _, rfl, rfl, rfl, by decide +kernel⟩
  all_goals decide +kernel

/-- The lists are sound in a take with a pulse scheduled. -/
theorem marked_listsSound : marked.listsSound := by
  have hw : marked.pe.window.length = 1 := by decide +kernel
  obtain ⟨slot, hs⟩ := List.length_eq_one_iff.mp hw
  have hm : marked.pe.window.map PairSlot.mark = [0] := by decide +kernel
  have hl : marked.pe.window.map (fun p => (p.parts.left.state, p.parts.right.state)) = [(.triggerPending, .awaited)] := by
    decide +kernel
  have ha : marked.pe.window.map PairSlot.age = [0] := by decide +kernel
  have hr : marked.cg.rig = .rolling := by decide +kernel
  have hd : marked.ae.frame.depth = 4 := by decide +kernel
  simp only [hs, List.map_cons, List.map_nil, List.cons.injEq, and_true, Prod.mk.injEq] at hm hl ha
  refine ⟨⟨by omega, by omega, by simp [hs], by simp [hs, ha, hd], by simp [hr], by simp [hr]⟩, ?_, ?_⟩
  · change _ = _
    decide +kernel
  have hpl : marked.tp.pulses.left = [⟨0, 4191667⟩] := by decide +kernel
  have hpr : marked.tp.pulses.right = [] := by decide +kernel
  have htl : marked.pe.triggers.left = [] := by decide +kernel
  have htr : marked.pe.triggers.right = [⟨0, 0⟩] := by decide +kernel
  refine both_eyes ⟨?_, ?_, ?_, ?_⟩ ⟨?_, ?_, ?_, ?_⟩ <;>
    simp [PerEye.get, hpl, hpr, htl, htr, hs, hm, hl.1, hl.2]

/-- A state whose one slot is complete, and one whose slot is not. -/
theorem witness_RetirementInMarkOrder :
    marked.listsSound ∧
      (retire { agreed with pe := { agreed.pe with window := [slotOf .missing .reported false] } }).pe.window = [] ∧
      (retire fired).pe.window.length = 1 ∧
      (((drained 3).eye .left).takenFull = false ∧ ((takenWith 255).eye .left).takenFull = true ∧
        ((takenWith 255).eye .right).takenFull = false) :=
  ⟨marked_listsSound, by decide +kernel, by decide +kernel, by decide +kernel, by decide +kernel, by decide +kernel⟩

/-! Invariants -/

theorem reset_eyesSound : State.reset.eyesSound :=
  ⟨fun h => absurd h (by decide), fun _ h => absurd h (by simp [State.reset, RigPort.atReset]), fun e =>
    ⟨by cases e <;> rfl, by cases e <;> decide, fun h => absurd (by cases e <;> rfl) h,
      fun h => absurd h (by cases e <;> decide),
      fun _ => ⟨by cases e <;> rfl, by cases e <;> rfl, by cases e <;> rfl, fun _ h => absurd h (by cases e <;> exact nofun)⟩,
      fun _ h => absurd h (by cases e <;> exact nofun), fun h => absurd h (by cases e <;> decide)⟩⟩

theorem witness_EyePortsStaySound : State.reset.eyesSound ∧ step State.reset = .next (tick State.reset) :=
  ⟨reset_eyesSound, rfl⟩

theorem witness_PulsesStayWithTheTake :
    State.reset.pulsesSound ∧ step State.reset = .next (tick State.reset) := by
  refine ⟨⟨fun _ => ⟨rfl, rfl⟩, ?_, ?_, both_eyes (fun _ => ⟨rfl, rfl⟩) fun _ => ⟨rfl, rfl⟩⟩, rfl⟩ <;>
    simp [State.reset, TriggerPlanner.atReset]

theorem witness_WindowAndListsStaySound : marked.listsSound ∧ step marked = .next (tick marked) := by
  have hp : marked.pending = [] := by decide +kernel
  exact ⟨marked_listsSound, by simp [step, hp]⟩

theorem queued_queueSound : (queued 1).queueSound := by
  refine ⟨by decide, ?_, ?_, ?_⟩
  · intro r hr
    obtain rfl : r = acceptRecord false blankRecord := List.mem_singleton.mp hr
    decide +kernel
  · intro r n h
    exact absurd h (by simp [queued, State.mapPq, State.reset, PairQueue.atReset])
  · intro r h
    exact absurd h (by simp [queued, State.mapPq, State.reset, PairQueue.atReset])

theorem witness_PairQueueStaysSound : (queued 1).queueSound ∧ step (queued 1) = .next (tick (queued 1)) :=
  ⟨queued_queueSound, rfl⟩

theorem witness_LensStoreStaysSound : State.reset.storeSound ∧ step State.reset = .next (tick State.reset) := by
  have hs : ∀ j, State.reset.lts.slot j = ⟨none, none, false⟩ := by
    intro j
    simp only [LensStore.slot, State.reset, LensStore.atReset, List.getD_eq_getElem?_getD, List.getElem?_replicate]
    split <;> rfl
  refine ⟨⟨rfl, rfl, by decide +kernel, ?_, ?_, by decide, ?_,
    bound_of _ (both_eyes (by decide +kernel) (by decide +kernel))⟩, rfl⟩
  · intro l hl
    obtain rfl := List.eq_of_mem_replicate hl
    exact ⟨by simp, by simp⟩
  · intro j k _ _ _
    simp [hs, LensSlot.apart, LensSlot.identity, LensSlot.pendingIdentity]
  · intro _ l hl
    obtain rfl := List.eq_of_mem_replicate hl
    rfl

theorem witness_SettingsStayInRange : State.reset.settingsInRange ∧ step State.reset = .next (tick State.reset) := by
  refine ⟨⟨⟨by decide, by decide⟩, ⟨by decide, ⟨by decide, by decide⟩, by decide, by decide, by decide, by decide, ?_⟩,
    ⟨by decide, by decide⟩, ⟨by decide, by decide⟩, ?_, ?_, by decide, by decide, by decide, by decide, ?_, ?_, ?_, ?_, ?_,
    ?_⟩, rfl⟩
  · intro a
    cases a <;> decide
  · simp [State.reset, Cadence.atReset]
  · simp [State.reset, Cadence.atReset]
  · simp [State.reset, AgreementEngine.atReset]
  · exact both_eyes (by simp [State.reset, State.eye, EyePort.atReset, PerEye.both, PerEye.get])
      (by simp [State.reset, State.eye, EyePort.atReset, PerEye.both, PerEye.get])
  · intro a
    cases a <;> simp [State.reset, LensMatch.atReset, PerAxis.all, PerAxis.get]
  · intro e a
    cases e <;> cases a <;>
      simp [State.reset, LensMatch.atReset, PerAxis.all, PerAxis.get, PerEye.get, PerEye.both]
  · simp [State.reset, TriggerPlanner.atReset]
  · intro l hl
    obtain rfl := List.eq_of_mem_replicate hl
    exact ⟨by simp, by simp⟩

end Sys2Proof.Tests
end

