-- ==== Sys2Proof/Proofs/CadenceRequests.lean ====
section
/-! PROOFS. RATE and SOURCE (R13, R16): one equation for each outcome of the two decisions and of the change each makes to
the Cadence Generator, then the two statements case by case. -/

namespace Sys2Proof.Machine

/-- A request whose decision changes the Cadence Generator alone and stores its response. -/
theorem answer_mapCg_rcpClosed (r : Request) (pad : Nat) (code : ResponseCode) (f : Cadence → Cadence) (s : State) :
    answer (requestKind r) code ((s.rcpClosed (requestBits r pad)).mapCg f) =
      { s with cg := f s.cg, rcp := s.rcpAnswer r pad code } := rfl

/-! ## RATE -/

/-- N = 0 holds the rate at once, but the rate of the plan in force in ROLLING stays; N > 0 ramps from the current rate. -/
theorem Cadence.setRate_eq (rate : Nat) (marks : BitVec 16) (c : Cadence) :
    c.setRate rate marks.toNat =
      { c with
        targetRate := rate
        ramp := if marks = 0 then none else some ⟨c.currentRate, rate, 0, marks.toNat⟩
        currentRate := if marks = 0 ∧ c.rig ≠ .rolling then rate else c.currentRate } := by
  by_cases hm : marks = 0
  · subst hm
    by_cases hr : c.rig = .rolling <;> simp [Cadence.setRate, hr]
  · have hn : marks.toNat ≠ 0 := fun h0 => hm (BitVec.eq_of_toNat_eq h0)
    rw [Cadence.setRate, if_neg hn, if_neg hm, if_neg fun h => hm h.1]

/-- A rate held at once is the step rate of the next plan (R15). -/
theorem Cadence.stepRate_setRate_zero (rate : Nat) (c : Cadence) : (c.setRate rate 0).stepRate = rate := rfl

/-- The ceiling a RATE meets: the agreed one, or 240,000 with no agreement (R13). -/
theorem limitedRate_ceiling (e : AgreementEngine) (target : Nat) :
    limitedRate e.ceiling target =
      min (min (max target 1000) 240000) (match e.agreement with | some a => a.ceiling | none => 240000) := by
  rw [AgreementEngine.ceiling]
  cases e.agreement <;> rfl

/-- With source REF a RATE is refused. -/
theorem decideRate_ref (target : BitVec 32) (marks : BitVec 16) (s : State) (h : s.cg.source = .ref) :
    decideRate target marks s = answer 0x63 .state s :=
  if_pos h

/-- With source FREE a RATE sets the limited target, and tells whether the limits changed it. -/
theorem decideRate_free (target : BitVec 32) (marks : BitVec 16) (s : State) (h : s.cg.source = .free) :
    decideRate target marks s =
      answer 0x63 (if limitedRate s.ae.ceiling target.toNat = target.toNat then .done else .clamped)
        (s.mapCg (Cadence.setRate (limitedRate s.ae.ceiling target.toNat) marks.toNat)) :=
  if_neg (by simp [h])

/-- An accepted RATE as a command. -/
theorem exec_rate_free (target : BitVec 32) (marks : BitVec 16) (pad : Nat) (s : State) (h : s.rcpServes)
    (hsrc : s.cg.source = .free) {rate : Nat} (hrate : limitedRate s.ae.ceiling target.toNat = rate) :
    exec (.rate target marks pad) s = .next
      { s with
        cg := s.cg.setRate rate marks.toNat
        rcp := s.rcpAnswer (.rate target marks) pad (if rate = target.toNat then .done else .clamped) } := by
  subst hrate
  exact (exec_rate_serves _ _ _ _ h).trans (congrArg _ (decideRate_free _ _ _ hsrc))

/-- Settles O18: the source decides between refusal and acceptance, and N between a held rate and a ramp. -/
theorem rateRequests : Obligations.RateRequests := by
  unfold Obligations.RateRequests
  intro s target marks pad h
  refine ⟨fun hsrc => ?refused, fun hsrc limited hlimited => ?accepted⟩
  case refused => exact (exec_rate_serves _ _ _ _ h).trans (congrArg _ (decideRate_ref _ _ _ hsrc))
  case accepted =>
    have hrate : limitedRate s.ae.ceiling target.toNat = limited :=
      (limitedRate_ceiling _ _).trans hlimited.symm
    have hexec := exec_rate_free target marks pad s h hsrc hrate
    refine ⟨by rw [hexec, Cadence.setRate_eq], fun t ht hm => ?_⟩
    subst hm
    obtain rfl := Host.Outcome.next.inj (hexec.symm.trans ht)
    exact Cadence.stepRate_setRate_zero limited s.cg

/-! ## SOURCE -/

theorem sourceCode_zero : sourceCode 0 = some .free := rfl

theorem sourceCode_one : sourceCode 1 = some .ref := rfl

theorem sourceCode_eq_none {code : Byte} (h0 : code ≠ 0) (h1 : code ≠ 1) : sourceCode code = none := by
  rw [sourceCode, if_neg h0, if_neg h1]

/-- A code that names no source is RANGE (R167). -/
theorem decideSource_range {code : Byte} (s : State) (hc : sourceCode code = none) :
    decideSource code s = answer 0x62 .range s := by
  rw [decideSource, hc]

/-- Outside SETUP a SOURCE is refused. -/
theorem decideSource_state {code : Byte} {source : Source} (s : State) (hc : sourceCode code = some source)
    (hrig : s.cg.rig ≠ .setup) : decideSource code s = answer 0x62 .state s := by
  simp only [decideSource, hc, if_pos hrig]

/-- Naming the source in force changes nothing. -/
theorem decideSource_same {code : Byte} (s : State) (hc : sourceCode code = some s.cg.source)
    (hrig : s.cg.rig = .setup) : decideSource code s = answer 0x62 .done s := by
  simp [decideSource, hc, hrig]

/-- A change of the source to REF. -/
theorem decideSource_toRef (s : State) (hrig : s.cg.rig = .setup) (hsrc : s.cg.source = .free) :
    decideSource 1 s = answer 0x62 .done (s.mapCg Cadence.toRef) := by
  simp only [decideSource, sourceCode_one, hrig, hsrc]
  rfl

/-- A change of the source to FREE. -/
theorem decideSource_toFree (s : State) (hrig : s.cg.rig = .setup) (hsrc : s.cg.source = .ref) :
    decideSource 0 s = answer 0x62 .done (s.mapCg Cadence.toFree) := by
  simp only [decideSource, sourceCode_zero, hrig, hsrc]
  rfl

/-- A ramp in force ends at its target when the source becomes REF (R15). -/
theorem Cadence.toRef_eq (c : Cadence) :
    c.toRef =
      { c with
        source := .ref, ref := .seeking, period := none, seek := ⟨none, none, 0⟩
        targetRate := match c.ramp with | some r => r.r1 | none => c.targetRate
        ramp := none } := by
  rw [Cadence.toRef]
  cases c.ramp <;> rfl

/-- With the reference OFF an edge of REFIN does nothing. -/
theorem refEdge_off (s : State) (h : s.cg.ref = .off) : refEdge s = s := by
  rw [refEdge, h]

/-- Settles O19: one outcome of the decision for each case of the code, the rig state and the source in force. -/
theorem sourceRequests : Obligations.SourceRequests := by
  unfold Obligations.SourceRequests
  refine ⟨fun s code pad h => ?_, fun s hoff => congrArg _ (refEdge_off s hoff)⟩
  rw [exec_source_serves _ _ _ h]
  refine ⟨fun h0 h1 => ?range, fun hc hrig => ?state, fun hrig hsame => ?same, fun hrig hc hsrc => ?toRef,
    fun hrig hc hsrc => ?toFree⟩
  case range => exact congrArg _ (decideSource_range _ (sourceCode_eq_none h0 h1))
  case state =>
    obtain rfl | rfl := hc
    · exact congrArg _ (decideSource_state _ sourceCode_zero hrig)
    · exact congrArg _ (decideSource_state _ sourceCode_one hrig)
  case same =>
    have hc : sourceCode code = some s.cg.source := by
      obtain ⟨rfl, hsrc⟩ | ⟨rfl, hsrc⟩ := hsame
      · rw [hsrc, sourceCode_zero]
      · rw [hsrc, sourceCode_one]
    exact congrArg _ (decideSource_same _ hc hrig)
  case toRef =>
    subst hc
    have hanswer := answer_mapCg_rcpClosed (.source 1) pad .done Cadence.toRef s
    rw [Cadence.toRef_eq] at hanswer
    rw [decideSource_toRef (s.rcpClosed _) hrig hsrc]
    exact congrArg _ hanswer
  case toFree =>
    subst hc
    rw [decideSource_toFree (s.rcpClosed _) hrig hsrc]
    exact congrArg _ (answer_mapCg_rcpClosed (.source 0) pad .done _ s)

end Sys2Proof.Machine
end

