-- ==== Sys2Proof/Proofs/EyeReports.lean ====
section
/-! PROOFS. IDLE and bits that hold no whole record (R40, R42, R44): the record that the port's reading accepts is a whole
record, the two outcomes of placing a report that are used, and the statement from them. -/

namespace Sys2Proof.Machine

/-! ## A record that is read is whole -/

/-- Bytes read before the rest count for their weight above it. -/
theorem foldl_fromBe (bytes : List Byte) (acc : Nat) :
    bytes.foldl (fun acc b => acc * 256 + b.toNat) acc = acc * 256 ^ bytes.length + fromBe bytes := by
  induction bytes generalizing acc with
  | nil => simp [fromBe]
  | cons b bytes ih =>
    simp only [fromBe, List.foldl_cons, List.length_cons, ih (acc * 256 + b.toNat), ih (0 * 256 + b.toNat)]
    ring

theorem fromBe_cons (b : Byte) (bytes : List Byte) :
    fromBe (b :: bytes) = b.toNat * 256 ^ bytes.length + fromBe bytes := by
  rw [fromBe, List.foldl_cons, foldl_fromBe, Nat.zero_mul, Nat.zero_add]

/-- What lies above the bytes that are written does not show in them. -/
theorem be_add_mul (k m n : Nat) : be k (m * 256 ^ k + n) = be k n := by
  induction k generalizing m with
  | zero => rfl
  | succ k ih =>
    have hm : m * 256 ^ (k + 1) = m * 256 * 256 ^ k := by ring
    have hhead : (m * 256 * 256 ^ k + n) / 256 ^ k = n / 256 ^ k + 256 * m := by
      rw [Nat.add_comm, Nat.add_mul_div_right _ _ (by positivity), Nat.mul_comm m]
    rw [be, be, hm, ih, hhead]
    congr 1
    exact BitVec.eq_of_toNat_eq (by simp)

theorem fromBe_lt (bytes : List Byte) : fromBe bytes < 256 ^ bytes.length := by
  induction bytes with
  | nil => simp [fromBe]
  | cons b bytes ih =>
    have hb : (b.toNat + 1) * 256 ^ bytes.length ≤ 256 * 256 ^ bytes.length := Nat.mul_le_mul_right _ b.isLt
    rw [fromBe_cons, List.length_cons, Nat.pow_succ]
    linarith

/-- Writing the number that bytes spell gives the bytes back. -/
theorem be_fromBe (bytes : List Byte) : be bytes.length (fromBe bytes) = bytes := by
  induction bytes with
  | nil => rfl
  | cons b bytes ih =>
    have hhead : (b.toNat * 256 ^ bytes.length + fromBe bytes) / 256 ^ bytes.length = b.toNat := by
      rw [Nat.add_comm, Nat.add_mul_div_right _ _ (by positivity), Nat.div_eq_of_lt (fromBe_lt bytes), Nat.zero_add]
    rw [fromBe_cons, List.length_cons, be, hhead, be_add_mul, ih, BitVec.ofNat_toNat, BitVec.setWidth_eq]

/-- The bytes that pass the tests of R40 begin with a whole record. -/
theorem wholeRecord_of_readFrame {bytes : List Byte} {kind : Byte} {body : List Byte}
    (h : readFrame bytes = .record kind body) : wholeRecord bytes kind body := by
  match bytes, h with
  | k :: len :: rest, h =>
    simp only [readFrame] at h
    split_ifs at h with hlen hcheck
    obtain ⟨rfl, rfl⟩ := Framed.record.inj h
    have hbody : (rest.take len.toNat).length = len.toNat := by rw [List.length_take]; omega
    have hlast : ((rest.drop len.toNat).take 2).length = 2 := by rw [List.length_take, List.length_drop]; omega
    have hwritten := be_fromBe ((rest.drop len.toNat).take 2)
    rw [hlast, hcheck] at hwritten
    refine ⟨by omega, (rest.drop len.toNat).drop 2, ?_⟩
    rw [frameRecord, withCheck, hbody, BitVec.ofNat_toNat, BitVec.setWidth_eq, hwritten]
    simp only [List.cons_append, List.append_assoc, List.take_append_drop]

/-- The port accepts no report where no whole record stands (R40). -/
theorem readReport_of_not_wholeRecord {bytes : List Byte} (h : ¬ ∃ kind body, wholeRecord bytes kind body) :
    readReport bytes = none := by
  rw [readReport]
  cases hread : readFrame bytes with
  | bad => rfl
  | record kind body => exact absurd ⟨kind, body, wholeRecord_of_readFrame hread⟩ h

/-! ## Placing a report -/

theorem placeReport_none (e : Eye) (s : State) : placeReport e none s = countLost e s := rfl

/-- Every attached state expects IDLE, and IDLE is dropped (R41, R42). -/
theorem placeReport_idle (e : Eye) (s : State) (h : (s.eye e).state.attached = true) :
    placeReport e (some .idle) s = s := by
  simp [placeReport, expectedIn, h]

/-- One more lost report, in either case of the instant (R44). -/
theorem EyePort.countLost_lost_eq_lostNext (p : EyePort) : p.countLost.lost = p.lostNext := by
  cases h : p.takenFull with
  | true => rw [countLost_lost_takenFull h, lostNext, if_pos (.inl h)]; rfl
  | false =>
    rw [countLost_lost h, lostNext, Config.lostMax]
    simp only [h, Bool.false_eq_true, false_or]
    split <;> omega

/-- The end of a transaction leaves the lost-report count's next value as it was. -/
theorem EyePort.lostNext_ended (p : EyePort) (n : Nat) (slot : Option Report) :
    (p.ended n slot p.lost).lostNext = p.lostNext := rfl

/-! ## The commands -/

/-- A served IDLE ends its transaction and does nothing else. -/
theorem exec_idle_serves (e : Eye) (pad : Nat) (s : State) (h : s.eyeServes e) :
    exec (.idle e pad) s = .next (s.mapEye e fun p => p.ended (reportBits .idle pad) p.slot p.lost) := by
  have ⟨_, hattached, _⟩ := h
  have hexec : exec (.idle e pad) s = .next (eyeEnd e (8 * (reportRecord .idle).length + pad) (some .idle) s) := rfl
  rw [hexec, eyeEnd_serves _ _ _ _ h, reportRecord_bits, placeReport_idle]
  rwa [State.mapEye_eye_same]

/-- Served bits that hold no accepted report end their transaction and count one lost report. -/
theorem exec_reportDiscarded_serves (e : Eye) (bits : List Bool) (s : State) (h : s.eyeServes e)
    (hread : readReport (wholeBytes bits) = none) :
    exec (.reportDiscarded e bits) s =
      .next (countLost e (s.mapEye e fun p => p.ended bits.length p.slot p.lost)) := by
  have hexec : exec (.reportDiscarded e bits) s = .next (eyeEnd e bits.length (readReport (wholeBytes bits)) s) := rfl
  rw [hexec, eyeEnd_serves _ _ _ _ h, hread, placeReport_none]

/-- Settles O30: an IDLE is dropped where it is placed, and bits with no whole record are read as no report. -/
theorem idleReportsDropped : Obligations.IdleReportsDropped := by
  unfold Obligations.IdleReportsDropped
  intro s e h
  refine ⟨fun pad => ?idle, fun bits hwhole => ?discarded⟩
  case idle => rw [exec_idle_serves _ _ _ h, mapEye_eq]
  case discarded =>
    refine ⟨_, exec_reportDiscarded_serves e bits s h (readReport_of_not_wholeRecord hwhole), ?_⟩
    rw [countLost, State.mapEye_eye_same, EyePort.countLost_lost_eq_lostNext, State.mapEye_eye_same,
      EyePort.lostNext_ended]

end Sys2Proof.Machine
end

