-- ==== Sys2Proof/Proofs/TriggerPlanning.lean ====
section
/-! PROOFS. Chapter 4: the exposure (R74), the trigger offsets and the skew they predict (R76, R77, R82), the spacing check
(R79 to R81), and the requests that set what a plan takes, SHUTTER and DEMAND (R75, R115). One equation for each value a
plan draws from its snapshot, then the statements from these. -/

namespace Sys2Proof.Machine

/-! ## The exposure -/

theorem Snapshot.wantedExposure_angle {s : Snapshot} (h : s.shutterMode = .angle) :
    s.wantedExposure = s.period * s.shutterValue / 36000 := by
  rw [Snapshot.wantedExposure, h]

theorem Snapshot.wantedExposure_time {s : Snapshot} (h : s.shutterMode = .time) :
    s.wantedExposure = s.shutterValue := by
  rw [Snapshot.wantedExposure, h]

/-- Step 3 of R74: no exposure is below 100. -/
theorem Snapshot.le_exposure (s : Snapshot) : 100 ≤ s.exposure := le_max_right _ _

/-- Steps 2 and 3 of R74, each as the replacement that the rule states. -/
theorem Snapshot.exposure_eq_ite (s : Snapshot) {capped : Nat}
    (hcapped : capped = if s.period - s.maxBlank < s.wantedExposure then s.period - s.maxBlank else s.wantedExposure) :
    s.exposure = if capped < 100 then 100 else capped := by
  have hmin : min s.wantedExposure (s.period - s.maxBlank) = capped := by
    rw [hcapped]
    split <;> omega
  rw [Snapshot.exposure, hmin]
  split <;> omega

/-- Where the period leaves room for the least exposure, the exposure and the larger blank fit into it. -/
theorem Snapshot.exposure_add_maxBlank_le (s : Snapshot) (h : s.maxBlank + 100 ≤ s.period) :
    s.exposure + s.maxBlank ≤ s.period := by
  rw [Snapshot.exposure]
  omega

/-- Settles O42: the three steps, then their bounds, then the rule's table from the step each line turns on. -/
theorem planExposure : Obligations.PlanExposure := by
  unfold Obligations.PlanExposure
  refine ⟨fun s first second hfirst hsecond => ?steps, fun s hreadout hfloor => ?bounds,
    fun s hperiod hmode hvalue => ?least, fun s hperiod hblank => ?table⟩
  case steps =>
    have hwanted : s.wantedExposure = first := by
      rw [hfirst]
      cases hmode : s.shutterMode with
      | angle => exact s.wantedExposure_angle hmode
      | time => exact s.wantedExposure_time hmode
    subst hwanted
    exact s.exposure_eq_ite hsecond
  case bounds =>
    have hleft : 1000 ≤ s.readout.left := hreadout .left
    exact ⟨by omega, s.le_exposure, s.exposure_add_maxBlank_le (by rw [Snapshot.maxBlank]; omega)⟩
  case least =>
    have hwanted : s.period * s.shutterValue / 36000 = 11 := by rw [hperiod, hvalue]
    refine ⟨hwanted, ?_⟩
    rw [Snapshot.exposure, s.wantedExposure_angle hmode, hwanted]
    omega
  case table =>
    have hcap : s.period - s.maxBlank = 4116667 := by rw [Snapshot.maxBlank, hperiod, hblank]
    have hangle (hmode : s.shutterMode = .angle) :
        s.exposure = max (min (4166667 * s.shutterValue / 36000) 4116667) 100 := by
      rw [Snapshot.exposure, hcap, s.wantedExposure_angle hmode, hperiod]
    have htime (hmode : s.shutterMode = .time) : s.exposure = max (min s.shutterValue 4116667) 100 := by
      rw [Snapshot.exposure, hcap, s.wantedExposure_time hmode]
    exact ⟨fun hmode hvalue => by rw [hangle hmode, hvalue]; rfl, fun hmode hvalue => by rw [hangle hmode, hvalue]; rfl,
      fun hmode hvalue => by rw [hangle hmode, hvalue]; rfl, fun hmode hvalue => by rw [htime hmode, hvalue]; rfl,
      fun hmode hvalue => by rw [htime hmode, hvalue]; rfl⟩

/-! ## The trigger offsets and the skew -/

/-- The anchor in the middle of the picture is at half the readout, whichever way the eye scans. -/
theorem anchorOffset_middle (readout : Nat) (up : Bool) : anchorOffset readout up 512 = readout / 2 := by
  have hheight : anchorHeight up 512 = 512 := by cases up <;> rfl
  rw [anchorOffset, hheight]
  omega

/-- The anchor at row 0 is read last by an eye that scans up, and first by any other. -/
theorem anchorOffset_zero (readout : Nat) (up : Bool) : anchorOffset readout up 0 = if up then readout else 0 := by
  cases up <;> simp [anchorOffset, anchorHeight]

/-- With both eyes included each offset is what its lead lacks of the larger lead (R77). -/
theorem Snapshot.offset_two (s : Snapshot) (e : Eye) :
    s.offset ⟨true, true⟩ e = max (s.lead .left) (s.lead .right) - s.lead e := by
  cases e <;> rfl

/-- With both eyes included an edge is the edge difference of their offsets (R82). -/
theorem Snapshot.edge_two (s : Snapshot) (x : Nat) :
    s.edge ⟨true, true⟩ x =
      edgeDifference ⟨s.offset ⟨true, true⟩ .left, s.offset ⟨true, true⟩ .right⟩ s.readout s.scansUp x := rfl

theorem Eye_eq_or_eq_other (e e' : Eye) : e' = e ∨ e' = e.other := by
  cases e <;> cases e' <;> decide

/-- An eye included alone is its own centroid (R77). -/
theorem Snapshot.centroid_alone (s : Snapshot) {e : Eye} {included : PerEye Bool} (h : included.get e.other = false)
    (hin : included.get e = true) : s.centroid included = s.lead e := by
  obtain ⟨left, right⟩ := included
  cases e <;> obtain rfl := h <;> obtain rfl := hin <;> simp [Snapshot.centroid]

/-- Where one eye is not included neither has an offset (R77). -/
theorem Snapshot.offset_alone (s : Snapshot) {e : Eye} {included : PerEye Bool} (h : included.get e.other = false)
    (e' : Eye) : s.offset included e' = 0 := by
  rw [Snapshot.offset]
  split
  next hin =>
    obtain rfl | rfl := Eye_eq_or_eq_other e e'
    · rw [s.centroid_alone h hin, Nat.sub_self]
    · exact absurd hin (by simp [h])
  next => rfl

/-- Where one eye is not included no edge is predicted (R82). -/
theorem Snapshot.edge_alone (s : Snapshot) {e : Eye} {included : PerEye Bool} (h : included.get e.other = false)
    (x : Nat) : s.edge included x = 0 := by
  obtain ⟨left, right⟩ := included
  cases e <;> obtain rfl := h <;> simp [Snapshot.edge]

/-- The half-exposure that both leads share cancels: the offsets are those of the choice (R54, R77). -/
theorem Snapshot.offset_two_eq_choiceOffsets (s : Snapshot) :
    (⟨s.offset ⟨true, true⟩ .left, s.offset ⟨true, true⟩ .right⟩ : PerEye Nat) =
      choiceOffsets (.of fun e => anchorOffset (s.readout.get e) (s.scansUp.get e) s.anchor) := by
  simp only [Snapshot.offset_two, Snapshot.lead, choiceOffsets, PerEye.of, Nat.add_max_add_right, Nat.add_sub_add_right]

/-- A two-eye plan predicts the skew by which its agreement was chosen. -/
theorem plan_skew_pairAgreement (s : State) (l r : Offer) (departed : PerEye Bool) :
    (PlanInProgress.mk (s.snapshot (pairAgreement s.ae.frame l r)) ⟨true, true⟩ departed).plan.skew =
      (pairAgreement s.ae.frame l r).skew := by
  simp only [PlanInProgress.plan, Snapshot.edge_two, Snapshot.offset_two_eq_choiceOffsets]
  rfl

/-- Settles O43: two eyes from their leads and the larger lead, one eye as its own centroid, and the skew of the choice. -/
theorem offsetsMeetAndPredictSkew : Obligations.OffsetsMeetAndPredictSkew := by
  unfold Obligations.OffsetsMeetAndPredictSkew
  refine ⟨fun s t h _ ht hh trig htrig => ?two, fun s e included hother => ⟨s.offset_alone hother, s.edge_alone hother⟩,
    fun p => ⟨rfl, rfl, rfl, rfl⟩, plan_skew_pairAgreement⟩
  case two =>
    have hanchor : ∀ e, t e = anchorOffset (s.readout.get e) (s.scansUp.get e) s.anchor := ht
    have hlead : ∀ e, h e = s.lead e := fun e => by rw [hh, hanchor, Snapshot.lead]
    have hoffset : ∀ e, trig e = max (h .left) (h .right) - h e := fun e => by
      rw [htrig, s.offset_two, hlead, hlead, hlead]
    have hleft := hoffset .left
    have hright := hoffset .right
    refine ⟨hoffset, by omega, by omega, ?differ, fun h512 e => ?middle, fun h0 e => ?zero, fun x _ => ?edge⟩
    case differ =>
      have hhleft := hh .left
      have hhright := hh .right
      omega
    case middle => rw [hanchor, h512, anchorOffset_middle]
    case zero => rw [hanchor, h0, anchorOffset_zero]
    case edge =>
      rw [htrig, htrig]
      exact s.edge_two x

/-! ## The spacing check -/

/-- With source FREE the mark is expected one period after the start (R79). -/
theorem State.snapshot_expected_free (s : State) (a : Agreement) (h : s.cg.source = .free) :
    (s.snapshot a).expected = s.timebase + BitVec.ofNat 48 (s.snapshot a).period := by
  simp only [State.snapshot, planCadence, h]
  rfl

/-- With source REF the plan takes P, and the mark may come a whole correction early (R68, R79). -/
theorem State.snapshot_expected_ref (s : State) (a : Agreement) {p : Nat} (h : s.cg.source = .ref)
    (hp : s.cg.period = some p) :
    (s.snapshot a).period = p ∧ (s.snapshot a).expected = s.timebase + BitVec.ofNat 48 (p - p / 256) := by
  simp only [State.snapshot, planCadence, h, hp]
  exact ⟨rfl, rfl⟩

theorem Snapshot.shortfall_not_included (s : Snapshot) {included : PerEye Bool} {e : Eye}
    (h : included.get e = false) : s.shortfall included e = 0 := by
  cases hlast : s.lastReadout.get e <;> simp [Snapshot.shortfall, hlast, h]

theorem Snapshot.shortfall_none (s : Snapshot) (included : PerEye Bool) {e : Eye} (h : s.lastReadout.get e = none) :
    s.shortfall included e = 0 := by
  rw [Snapshot.shortfall, h]

/-- The shortfall of an included eye that has a last readout start (R79). -/
theorem Snapshot.shortfall_some (s : Snapshot) {included : PerEye Bool} {e : Eye} {last : Time}
    (h : included.get e = true) (hlast : s.lastReadout.get e = some last) :
    (s.shortfall included e : Int) =
      max 0 (timeDiff last s.expected + s.readout.get e + s.blank.get e - (s.offset included e + s.exposure)) := by
  simp only [Snapshot.shortfall, hlast, h, if_true]
  omega

/-- The slip is the larger of the two shortfalls, and covers that of each eye (R79). -/
theorem Snapshot.shortfall_le_slip (s : Snapshot) (included : PerEye Bool) (e : Eye) :
    s.shortfall included e ≤ s.slip included := by
  cases e with
  | left => exact le_max_left _ _
  | right => exact le_max_right _ _

@[simp] theorem PlanInProgress.plan_slip (p : PlanInProgress) : p.plan.slip = p.snapshot.slip p.included := rfl

@[simp] theorem PlanInProgress.plan_offset (p : PlanInProgress) (e : Eye) :
    p.plan.offset.get e = p.snapshot.offset p.included e := PerEye_get_of _ e

@[simp] theorem PlanInProgress.plan_exposure (p : PlanInProgress) : p.plan.exposure = p.snapshot.exposure := rfl

/-- A plan skips its mark when its slip exceeds a quarter of its period (R80). -/
theorem PlanInProgress.plan_skipped_iff (p : PlanInProgress) :
    p.plan.skipped = true ↔ p.plan.period / 4 < p.plan.slip := decide_eq_true_iff

/-- Settles O44: X by the source, the slip as the larger shortfall, and the spacing because the slip covers each
shortfall. -/
theorem slipKeepsSpacing : Obligations.SlipKeepsSpacing := by
  unfold Obligations.SlipKeepsSpacing
  refine ⟨fun s a => ⟨s.snapshot_expected_free a, fun _ => s.snapshot_expected_ref a⟩,
    fun p shortfall hshortfall => ⟨?larger, p.plan_skipped_iff, fun e last hin hlast => ?spacing⟩⟩
  case larger =>
    have heq : ∀ e, shortfall e = p.snapshot.shortfall p.included e := fun e => by
      rw [hshortfall, p.plan_offset, p.plan_exposure]
      cases hin : p.included.get e with
      | false => rw [p.snapshot.shortfall_not_included hin]; rfl
      | true =>
        cases hlast : p.snapshot.lastReadout.get e with
        | none => rw [p.snapshot.shortfall_none _ hlast]; rfl
        | some last => exact (p.snapshot.shortfall_some hin hlast).symm
    rw [heq, heq, p.plan_slip, Snapshot.slip, Nat.cast_max]
  case spacing =>
    have hcover := p.snapshot.shortfall_le_slip p.included e
    have hsome := p.snapshot.shortfall_some hin hlast
    rw [p.plan_slip, p.plan_offset, p.plan_exposure]
    omega

/-! ## SHUTTER and DEMAND -/

theorem shutterCode_zero : shutterCode 0 = some .angle := rfl

theorem shutterCode_one : shutterCode 1 = some .time := rfl

theorem shutterCode_eq_none {mode : Byte} (h : 1 < mode.toNat) : shutterCode mode = none := by
  rw [shutterCode, if_neg (by rintro rfl; exact absurd h (by decide)), if_neg (by rintro rfl; exact absurd h (by decide))]

/-- A code that names no shutter mode is RANGE (R75, R167). -/
theorem decideShutter_range {mode : Byte} (value : BitVec 32) (s : State) (h : shutterCode mode = none) :
    decideShutter mode value s = answer 0x64 .range s := by
  rw [decideShutter, h]

/-- A SHUTTER of a mode sets the mode and the limited value, and tells whether the limit changed it (R75). -/
theorem decideShutter_mode {mode : Byte} {m : ShutterMode} (value : BitVec 32) (s : State) (h : shutterCode mode = some m) :
    decideShutter mode value s =
      answer 0x64 (if limitedShutter m value.toNat = value.toNat then .done else .clamped)
        (s.mapTp fun t => { t with shutterMode := m, shutterValue := limitedShutter m value.toNat }) := by
  rw [decideShutter, h]

/-- An accepted SHUTTER as a command. -/
theorem exec_shutter_mode {mode : Byte} {m : ShutterMode} {limited : Nat} (value : BitVec 32) (pad : Nat) (s : State)
    (hs : s.rcpServes) (h : shutterCode mode = some m) (hlimited : limitedShutter m value.toNat = limited) :
    exec (.shutter mode value pad) s = .next
      { s with
        tp := { s.tp with shutterMode := m, shutterValue := limited }
        rcp := s.rcpAnswer (.shutter mode value) pad (if limited = value.toNat then .done else .clamped) } := by
  subst hlimited
  exact (exec_shutter_serves _ _ _ _ hs).trans (congrArg _ (decideShutter_mode _ _ h))

/-- An axis set with an undefined bit is RANGE (R115, R167). -/
theorem decideDemand_range {axes : Byte} (focus iris zoom : BitVec 16) (s : State) (h : 8 ≤ axes.toNat) :
    decideDemand axes focus iris zoom s = answer 0x65 .range s :=
  if_pos (by simpa [axisSetDefined] using h)

/-- A DEMAND of defined axes replaces the demand of each axis present (R115). -/
theorem decideDemand_defined {axes : Byte} (focus iris zoom : BitVec 16) (s : State) (h : axes.toNat < 8) :
    decideDemand axes focus iris zoom s =
      answer 0x65 .done (s.mapLme fun l =>
        { l with demand := newDemand (axisSet axes) ⟨focus.toNat, iris.toNat, zoom.toNat⟩ l.demand }) :=
  if_neg (by simpa [axisSetDefined] using h)

/-! ## The demand a plan takes

The table changes that a plan start applies clear previous targets and leave the held demand (R102, R115). -/

@[simp] theorem clearPreviousIf_demand (c : Bool) (e : Eye) (s : State) :
    (clearPreviousIf c e s).lme.demand = s.lme.demand := by
  cases c <;> rfl

@[simp] theorem evalBinding_demand (e : Eye) (s : State) : (evalBinding e s).lme.demand = s.lme.demand := by
  unfold evalBinding
  dsimp only
  split <;> rfl

@[simp] theorem applyPendingOps_demand (s : State) : (applyPendingOps s).lme.demand = s.lme.demand := by
  unfold applyPendingOps
  split
  · simp [afterApply, evalBindings]
  · rfl

/-- The plan that a start leaves in progress: its snapshot is of the state after the pending table changes (R68, R102). -/
theorem planStart_inProgress {s : State} {a : Agreement} (h : s.ae.agreement = some a) :
    (planStart s).tp.inProgress =
      some ⟨((applyPendingOps s).mapLme fun l => { l with clearMark := .both false }).snapshot a, s.includedEyes,
        .both false⟩ := by
  simp [planStart, h, State.includedEyes]

/-- Settles O41: the two requests by their outcomes, and the snapshot of the next plan. -/
theorem shutterAndDemandRequests : Obligations.ShutterAndDemandRequests := by
  unfold Obligations.ShutterAndDemandRequests
  refine ⟨fun s mode value pad hs => ⟨fun hrange => ?shutterRange, fun m limited hmode => ?shutterMode⟩,
    fun s axes focus iris zoom pad hs => ⟨fun hrange => ?demandRange, fun hdefined => ?demandDefined⟩,
    fun s a ha => ⟨_, planStart_inProgress ha, ?snapshot⟩⟩
  case shutterRange =>
    exact (exec_shutter_serves _ _ _ _ hs).trans (congrArg _ (decideShutter_range _ _ (shutterCode_eq_none hrange)))
  case shutterMode =>
    obtain ⟨rfl, rfl, rfl⟩ | ⟨rfl, rfl, rfl⟩ := hmode
    · exact exec_shutter_mode _ _ _ hs shutterCode_zero rfl
    · exact exec_shutter_mode _ _ _ hs shutterCode_one rfl
  case demandRange =>
    exact (exec_demand_serves _ _ _ _ _ _ hs).trans (congrArg _ (decideDemand_range _ _ _ _ hrange))
  case demandDefined =>
    exact (exec_demand_serves _ _ _ _ _ _ hs).trans (congrArg _ (decideDemand_defined _ _ _ _ hdefined))
  case snapshot =>
    simp [State.snapshot]

end Sys2Proof.Machine
end

