-- ==== Sys2Proof/Proofs/StagingRequests.lean ====
section
/-! PROOFS. STAGE_RESET, STAGE_WRITE and READ_SLOT (R95, R96, R112): one equation for each outcome of each request as a
command, then the statement from them and the reading rules of the staging buffer. -/

namespace Sys2Proof.Machine

/-- A request whose decision changes the Lens Table Store alone and stores its response. -/
theorem answer_mapLts_rcpClosed (r : Request) (pad : Nat) (code : ResponseCode) (f : LensStore → LensStore) (s : State) :
    answer (requestKind r) code ((s.rcpClosed (requestBits r pad)).mapLts f) =
      { s with lts := f s.lts, rcp := s.rcpAnswer r pad code } := rfl

/-! ## STAGE_RESET and STAGE_WRITE -/

/-- The empty image and 0x00 to byte 399, as R95 counts them. -/
theorem emptyStaging_eq :
    emptyStaging = List.replicate 5 0 ++ be 2 (recordCheck (List.replicate 5 0)) ++ List.replicate 393 0 := rfl

/-- A STAGE_RESET changes the staging buffer and stores its response (R95). -/
theorem exec_stageReset_done (pad : Nat) (s : State) (h : s.rcpServes) :
    exec (.stageReset pad) s = .next
      { s with lts := { s.lts with staging := emptyStaging }, rcp := s.rcpAnswer .stageReset pad .done } :=
  (exec_stageReset_serves _ _ h).trans (congrArg _ (answer_mapLts_rcpClosed .stageReset pad .done _ s))

/-- A run that would pass byte 399 is RANGE, and no byte is written (R96). -/
theorem decideStageWrite_range {offset : BitVec 16} {data : List Byte} (s : State)
    (h : 400 < offset.toNat + data.length) : decideStageWrite offset data s = answer 0x6A .range s :=
  if_pos h

/-- A run that ends by byte 399 replaces the bytes of the buffer from its offset on (R96). -/
theorem decideStageWrite_done {offset : BitVec 16} {data : List Byte} (s : State)
    (h : offset.toNat + data.length ≤ 400) :
    decideStageWrite offset data s =
      answer 0x6A .done (s.mapLts fun l => { l with staging := writeBytes l.staging offset.toNat data }) :=
  if_neg (Nat.not_lt.mpr h)

/-! ## READ_SLOT -/

/-- No slot, no length or no run of an image: READ_SLOT is RANGE (R112). -/
theorem decideReadSlot_range {slot : Byte} {offset : BitVec 16} {n : Byte} (s : State)
    (h : 7 < slot.toNat ∨ n.toNat < 1 ∨ 64 < n.toNat ∨ 400 < offset.toNat + n.toNat) :
    decideReadSlot slot offset n s = answer 0x6E .range s :=
  if_pos h

/-- A READ_SLOT within the bounds answers the bytes of the slot's image (R112). -/
theorem decideReadSlot_done {slot : Byte} {offset : BitVec 16} {n : Byte} (s : State) (hslot : slot.toNat ≤ 7)
    (h1 : 1 ≤ n.toNat) (h64 : n.toNat ≤ 64) (hend : offset.toNat + n.toNat ≤ 400) :
    decideReadSlot slot offset n s =
      respond 0x6E .done (readBytes (s.lts.slot slot.toNat).image offset.toNat n.toNat) s :=
  if_neg (by rw [Config.stagingBytes]; omega)

/-- READ_SLOT answers as many bytes as it is asked for. -/
theorem readBytes_length (image : List Byte) (offset n : Nat) : (readBytes image offset n).length = n :=
  padded_length _ _ _

/-- The image of a VALID slot is that of its contents (R94). -/
theorem LensSlot.image_of_some {l : LensSlot} {c : LensImage} (h : l.contents = some c) : l.image = c.image := by
  rw [LensSlot.image, h]
  rfl

/-- The image of an EMPTY slot is the empty image (R95). -/
theorem LensSlot.image_of_none {l : LensSlot} (h : l.contents = none) : l.image = emptyImage := by
  rw [LensSlot.image, h]
  rfl

/-- Settles O46: each request by its outcomes, and the bytes written and read by the rules of the staging buffer. -/
theorem stagingAndReadSlotRequests : Obligations.StagingAndReadSlotRequests := by
  unfold Obligations.StagingAndReadSlotRequests
  intro s pad h
  refine ⟨?reset, fun offset data hbuffer =>
      ⟨fun hlength => ?writeFormat, fun h1 h64 hend => ?writeRange, fun h1 h64 hend => ?writeDone⟩,
    fun slot offset n => ⟨fun hrange => ?readRange, fun hslot h1 h64 hend => ?readDone⟩⟩
  case reset =>
    rw [← emptyStaging_eq]
    exact exec_stageReset_done pad s h
  case writeFormat =>
    refine exec_stageWrite_format _ _ _ _ h fun ⟨h1, h64⟩ => ?_
    obtain rfl | hlong := hlength
    · exact absurd h1 (by decide)
    · exact absurd h64 (Nat.not_le.mpr hlong)
  case writeRange =>
    exact (exec_stageWrite_serves _ _ _ _ h h1 h64).trans (congrArg _ (decideStageWrite_range _ hend))
  case writeDone =>
    refine ⟨writeBytes s.lts.staging offset.toNat data, writeBytes_wf _ _ _ hbuffer hend, fun i hi => ?bytes, ?executed⟩
    case bytes => exact writeBytes_getD _ _ _ (hbuffer ▸ hend) i (hbuffer ▸ hi)
    case executed =>
      exact (exec_stageWrite_serves _ _ _ _ h h1 h64).trans (congrArg _ (decideStageWrite_done _ hend))
  case readRange =>
    exact (exec_readSlot_serves _ _ _ _ _ h).trans (congrArg _ (decideReadSlot_range _ hrange))
  case readDone =>
    refine ⟨readBytes (s.lts.slot slot.toNat).image offset.toNat n.toNat, readBytes_length _ _ _,
      fun i hi => ?bytes, ?executed⟩
    case bytes =>
      rw [readBytes_getD _ _ _ _ hi]
      cases hcontents : (s.lts.slot slot.toNat).contents with
      | some c => exact congrArg (List.getD · _ 0) (LensSlot.image_of_some hcontents)
      | none => exact congrArg (List.getD · _ 0) (LensSlot.image_of_none hcontents)
    case executed =>
      exact (exec_readSlot_serves _ _ _ _ _ h).trans (congrArg _ (decideReadSlot_done _ hslot h1 h64 hend))

end Sys2Proof.Machine
end

