-- ==== Sys2Proof/Proofs/LensMatching.lean ====
section
/-! PROOFS. Lens matching (R117 to R119, R124 to R126). The rounded quotient and the bounds it keeps; the segment of a count
by the order of the counts; the read-back of a table whose counts are ordered. The forward computation is the read-back of
the table with demands and counts exchanged, so that the two statements rest on the same rules. -/

namespace Sys2Proof.Machine

/-! ## The rounded quotient -/

/-- The sign of a rounded quotient is that of the exact one. -/
theorem roundQuot_mul (n d : Int) :
    roundQuot n d * d = if n < 0 then -(roundDiv n.natAbs d.natAbs * d.natAbs : Int)
      else roundDiv n.natAbs d.natAbs * d.natAbs := by
  rw [roundQuot]
  obtain hd | hd := lt_or_ge d 0
  · rw [Int.ofNat_natAbs_of_nonpos hd.le]
    by_cases hn : n < 0 <;> simp [hn, hd]
  · rw [Int.natAbs_of_nonneg hd]
    by_cases hn : n < 0 <;> simp [hn, Int.not_lt.mpr hd]

/-- A rounded quotient is one half from the exact quotient at most, and where it is one half it lies away from zero. -/
theorem roundsTo_roundQuot (n : Int) {d : Int} (hd : d ≠ 0) : roundsTo n d (roundQuot n d) := by
  have hlow := Nat.div_mul_le_self (2 * n.natAbs + d.natAbs) (2 * d.natAbs)
  have hhigh := Nat.lt_div_mul_add (a := 2 * n.natAbs + d.natAbs) (b := 2 * d.natAbs) (by omega)
  have hproduct : ∀ q : Nat, q * (2 * d.natAbs) = 2 * (q * d.natAbs) := fun q => by ring
  rw [hproduct] at hlow hhigh
  rw [roundsTo, roundQuot_mul, roundDiv, ← Int.natCast_mul]
  split <;> omega

theorem roundsTo_neg {n d q : Int} : roundsTo (-n) (-d) q ↔ roundsTo n d q := by
  have h : -n - q * -d = -(n - q * d) := by ring
  rw [roundsTo, roundsTo, h, Int.mul_neg]
  simp only [Int.natAbs_neg]

/-- Rounding passes no whole number from below. -/
theorem le_of_roundsTo {n d q k : Int} (hd : 0 < d) (h : roundsTo n d q) (hk : n ≤ k * d) : q ≤ k := by
  obtain ⟨hhalf, -⟩ := h
  by_contra! hlt
  have hstep : (k + 1) * d ≤ q * d := Int.mul_le_mul_of_nonneg_right hlt hd.le
  rw [Int.add_mul] at hstep
  omega

/-- Rounding passes no whole number from above. -/
theorem ge_of_roundsTo {n d q k : Int} (hd : 0 < d) (h : roundsTo n d q) (hk : k * d ≤ n) : k ≤ q := by
  obtain ⟨hhalf, -⟩ := h
  by_contra! hlt
  have hstep : (q + 1) * d ≤ k * d := Int.mul_le_mul_of_nonneg_right hlt hd.le
  rw [Int.add_mul] at hstep
  omega

/-- The part `a` of `d`, taken of `b` and rounded, lies from 0 to `b`. -/
theorem roundsTo_mul_between {a b d q : Int} (hd : d ≠ 0) (ha : 0 ≤ a ∧ a ≤ d ∨ d ≤ a ∧ a ≤ 0)
    (h : roundsTo (b * a) d q) : min 0 b ≤ q ∧ q ≤ max 0 b := by
  wlog hpos : 0 < d generalizing a d
  · exact this (a := -a) (d := -d) (by omega) (by omega) (by rwa [Int.mul_neg, roundsTo_neg]) (by omega)
  have ha0 : 0 ≤ a := by omega
  have had : a ≤ d := by omega
  obtain hb | hb := le_total 0 b
  · have hlow : 0 * d ≤ b * a := by rw [Int.zero_mul]; exact Int.mul_nonneg hb ha0
    have hhigh : b * a ≤ b * d := Int.mul_le_mul_of_nonneg_left had hb
    exact ⟨(min_le_left _ _).trans (ge_of_roundsTo hpos h hlow), (le_of_roundsTo hpos h hhigh).trans (le_max_right _ _)⟩
  · have hlow : b * d ≤ b * a := Int.mul_le_mul_of_nonpos_left hb had
    have hhigh : b * a ≤ 0 * d := by rw [Int.zero_mul]; exact Int.mul_nonpos_of_nonpos_of_nonneg hb ha0
    exact ⟨(min_le_right _ _).trans (ge_of_roundsTo hpos h hlow), (le_of_roundsTo hpos h hhigh).trans (le_max_left _ _)⟩

/-- An exact quotient is its own rounding. -/
theorem roundQuot_mul_self (k : Int) {d : Int} (hd : d ≠ 0) : roundQuot (k * d) d = k := by
  have h := roundsTo_roundQuot (k * d) hd
  obtain hneg | hpos := lt_or_gt_of_ne hd
  · have hpos : 0 < -d := by omega
    have hexact : -(k * d) = k * -d := (Int.mul_neg k d).symm
    exact le_antisymm (le_of_roundsTo hpos (roundsTo_neg.mpr h) hexact.le) (ge_of_roundsTo hpos (roundsTo_neg.mpr h) hexact.ge)
  · exact le_antisymm (le_of_roundsTo hpos h le_rfl) (ge_of_roundsTo hpos h le_rfl)

/-! ## Within a segment -/

/-- The demand read back between a segment's counts lies between its demands, and is rounded from the segment's start
(R125). -/
theorem demandInSegment_between {p q : Point} {c : Nat} (hne : p.2 ≠ q.2)
    (hc : p.2 ≤ c ∧ c ≤ q.2 ∨ q.2 ≤ c ∧ c ≤ p.2) :
    min p.1 q.1 ≤ demandInSegment c (p, q) ∧ demandInSegment c (p, q) ≤ max p.1 q.1 ∧
      roundsTo (((q.1 : Int) - p.1) * ((c : Int) - p.2)) ((q.2 : Int) - p.2) ((demandInSegment c (p, q) : Int) - p.1) := by
  have hd : (q.2 : Int) - p.2 ≠ 0 := by omega
  have hround := roundsTo_roundQuot (((q.1 : Int) - p.1) * ((c : Int) - p.2)) hd
  have hbounds := roundsTo_mul_between hd (by omega) hround
  have hvalue : ((demandInSegment c (p, q) : Nat) : Int) - p.1 =
      roundQuot (((q.1 : Int) - p.1) * ((c : Int) - p.2)) ((q.2 : Int) - p.2) := by
    simp only [demandInSegment, interpolate]
    omega
  exact ⟨by omega, by omega, hvalue ▸ hround⟩

/-- The count of a segment's start reads back its demand. -/
theorem demandInSegment_start {p q : Point} (hne : p.2 ≠ q.2) : demandInSegment p.2 (p, q) = p.1 := by
  have h := roundQuot_mul_self 0 (d := (q.2 : Int) - p.2) (by omega)
  simp only [Int.zero_mul] at h
  simp [demandInSegment, interpolate, h]

/-- The count of a segment's end reads back its demand. -/
theorem demandInSegment_end {p q : Point} (hne : p.2 ≠ q.2) : demandInSegment q.2 (p, q) = q.1 := by
  have h := roundQuot_mul_self ((q.1 : Int) - p.1) (d := (q.2 : Int) - p.2) (by omega)
  simp [demandInSegment, interpolate, h]

/-! ## The order of the counts -/

/-- A count as its place in the order in which the axis meets it: the counts of a falling axis come greatest first. -/
def countPlace (rising : Bool) (c : Nat) : Int := if rising then c else -(c : Int)

/-- The counts of the breakpoints come in the order that the axis rises or falls. -/
def CountsInOrder (rising : Bool) (points : List Point) : Prop :=
  points.Pairwise fun p q => countPlace rising p.2 < countPlace rising q.2

theorem countPlace_lt_iff {rising : Bool} {a b : Nat} :
    countPlace rising a < countPlace rising b ↔ if rising then a < b else b < a := by
  cases rising <;> simp [countPlace]

theorem ne_of_countPlace_lt {rising : Bool} {a b : Nat} (h : countPlace rising a < countPlace rising b) : a ≠ b := by
  rintro rfl
  exact lt_irrefl _ h

/-- An axis rises or falls throughout. -/
theorem countPlace_cases (rising : Bool) : (∀ c, countPlace rising c = c) ∨ ∀ c, countPlace rising c = -(c : Int) := by
  cases rising
  · exact .inr fun _ => rfl
  · exact .inl fun _ => rfl

/-- Between two counts in the order of the axis is between them as numbers. -/
theorem between_of_countPlace {rising : Bool} {a b c : Nat} (ha : countPlace rising a ≤ countPlace rising c)
    (hb : countPlace rising c ≤ countPlace rising b) : a ≤ c ∧ c ≤ b ∨ b ≤ c ∧ c ≤ a := by
  obtain hplace | hplace := countPlace_cases rising <;> simp only [hplace] at ha hb <;> omega

/-- What comes before a segment, at its start at the latest, and after it, at its end at the earliest. -/
theorem CountsInOrder.around {rising : Bool} {before rest : List Point} {p q : Point}
    (h : CountsInOrder rising (before ++ p :: q :: rest)) :
    (∀ x ∈ before ++ [p], countPlace rising x.2 ≤ countPlace rising p.2) ∧
      countPlace rising p.2 < countPlace rising q.2 ∧
      ∀ x ∈ q :: rest, countPlace rising q.2 ≤ countPlace rising x.2 := by
  obtain ⟨-, hsegment, hbefore⟩ := List.pairwise_append.mp h
  obtain ⟨hp, hq⟩ := List.pairwise_cons.mp hsegment
  refine ⟨fun x hx => ?_, hp q List.mem_cons_self, fun x hx => ?_⟩
  · obtain hx | hx := List.mem_append.mp hx
    · exact (hbefore x hx p List.mem_cons_self).le
    · rw [List.mem_singleton.mp hx]
  · obtain rfl | hx := List.mem_cons.mp hx
    · exact le_rfl
    · exact ((List.pairwise_cons.mp hq).1 x hx).le

/-- The first breakpoint comes before the last where there are two. -/
theorem CountsInOrder.head_lt_getLast {rising : Bool} {points : List Point} {first last : Point}
    (h : CountsInOrder rising points) (hlength : 2 ≤ points.length) (hfirst : points.head? = some first)
    (hlast : points.getLast? = some last) : countPlace rising first.2 < countPlace rising last.2 := by
  match points, hlength with
  | p :: q :: rest, _ =>
    obtain rfl := Option.some.inj hfirst
    rw [List.getLast?_cons_cons] at hlast
    exact (List.pairwise_cons.mp h).1 last (List.mem_of_getLast? hlast)

/-! ## The segment of a count -/

/-- A count that a segment holds finds that segment (R124). -/
theorem countSegment_of_mem {rising : Bool} {before rest : List Point} {p q : Point} {c : Nat}
    (h : CountsInOrder rising (before ++ p :: q :: rest)) (hp : countPlace rising p.2 ≤ countPlace rising c)
    (hq : countPlace rising c < countPlace rising q.2 ∨ rest = []) :
    countSegment rising c (before ++ p :: q :: rest) = some (p, q) := by
  induction before with
  | nil => exact if_pos (hq.imp_left countPlace_lt_iff.mp)
  | cons b before ih =>
    have ih := ih (List.pairwise_cons.mp h).2
    obtain ⟨hbefore, -⟩ := CountsInOrder.around h
    match before, ih, hbefore with
    | [], ih, _ =>
      exact (if_neg (by simpa [← countPlace_lt_iff (rising := rising)] using hp)).trans ih
    | b' :: before, ih, hbefore =>
      have hb' := (hbefore b' (by simp)).trans hp
      exact (if_neg (by simpa [← countPlace_lt_iff (rising := rising)] using hb')).trans ih

/-- Every count from the first breakpoint's to the last's lies in a segment. -/
theorem exists_segment_of_between {rising : Bool} {points : List Point} {first last : Point} {c : Nat}
    (hlength : 2 ≤ points.length) (hfirst : points.head? = some first) (hlast : points.getLast? = some last)
    (hlow : countPlace rising first.2 ≤ countPlace rising c) (hhigh : countPlace rising c ≤ countPlace rising last.2) :
    ∃ before p q rest, points = before ++ p :: q :: rest ∧ countPlace rising p.2 ≤ countPlace rising c ∧
      countPlace rising c ≤ countPlace rising q.2 ∧ (countPlace rising c < countPlace rising q.2 ∨ rest = []) := by
  match points, hlength, hfirst, hlast with
  | p :: q :: rest, _, rfl, hend =>
    clear hlength hlast
    induction rest generalizing p q with
    | nil =>
      obtain rfl := Option.some.inj hend
      exact ⟨[], p, q, [], rfl, hlow, hhigh, .inr rfl⟩
    | cons r rest ih =>
      obtain hc | hc := lt_or_ge (countPlace rising c) (countPlace rising q.2)
      · exact ⟨[], p, q, r :: rest, rfl, hlow, hc.le, .inl hc⟩
      · obtain ⟨before, p', q', rest', hpoints, hsegment⟩ := ih q r (by simp) hend hc
        exact ⟨p :: before, p', q', rest', congrArg (p :: ·) hpoints, hsegment⟩

/-- A breakpoint of two or more starts a segment or ends the last one. -/
theorem exists_segment_of_mem {points : List Point} {x : Point} (hlength : 2 ≤ points.length) (hx : x ∈ points) :
    (∃ before q rest, points = before ++ x :: q :: rest) ∨ ∃ before p, points = before ++ [p, x] := by
  obtain ⟨before, after, rfl⟩ := List.append_of_mem hx
  match after with
  | q :: rest => exact .inl ⟨before, q, rest, rfl⟩
  | [] =>
    obtain rfl | ⟨before, p, rfl⟩ := List.eq_nil_or_concat before
    · exact absurd hlength (by simp)
    · exact .inr ⟨before, p, by simp⟩

/-! ## The read-back of a table -/

/-- Two breakpoints or more, whose counts come in the table's order: what the read-back takes of R94. -/
def AxisTable.ReadsBack (t : AxisTable) : Prop := 2 ≤ t.points.length ∧ CountsInOrder t.rising t.points

theorem AxisTable.exists_ends {t : AxisTable} (h : 2 ≤ t.points.length) :
    ∃ first last, t.points.head? = some first ∧ t.points.getLast? = some last := by
  have hne : t.points ≠ [] := fun hnil => by simp [hnil] at h
  exact ⟨_, _, List.head?_eq_some_head hne, List.getLast?_eq_some_getLast hne⟩

/-- The limit of a count to the range of the table's ends (R124). -/
theorem clampCount_eq {t : AxisTable} {first last : Point} (c : Nat) (hfirst : t.points.head? = some first)
    (hlast : t.points.getLast? = some last) :
    clampCount t c = max (min first.2 last.2) (min c (max first.2 last.2)) := by
  rw [clampCount, hfirst, hlast]

/-- A limited count is not limited again. -/
theorem clampCount_clampCount (t : AxisTable) (c : Nat) : clampCount t (clampCount t c) = clampCount t c := by
  match hfirst : t.points.head?, hlast : t.points.getLast? with
  | some first, some last =>
    rw [clampCount_eq _ hfirst hlast, clampCount_eq _ hfirst hlast]
    omega
  | none, _ => simp [clampCount, hfirst]
  | some _, none => simp [clampCount, hlast]

/-- A count reads back as its limit. -/
theorem readBack_clampCount (t : AxisTable) (c : Nat) : readBack t (clampCount t c) = readBack t c := by
  rw [readBack, clampCount_clampCount, readBack]

/-- A count between the two ends is not limited. -/
theorem clampCount_of_between {t : AxisTable} {first last : Point} {c : Nat} (hfirst : t.points.head? = some first)
    (hlast : t.points.getLast? = some last) (hlow : countPlace t.rising first.2 ≤ countPlace t.rising c)
    (hhigh : countPlace t.rising c ≤ countPlace t.rising last.2) : clampCount t c = c := by
  have hbetween := between_of_countPlace hlow hhigh
  rw [clampCount_eq _ hfirst hlast]
  omega

/-- A limited count lies between the two ends. -/
theorem countPlace_clampCount {t : AxisTable} {first last : Point} (h : t.ReadsBack) (c : Nat)
    (hfirst : t.points.head? = some first) (hlast : t.points.getLast? = some last) :
    countPlace t.rising first.2 ≤ countPlace t.rising (clampCount t c) ∧
      countPlace t.rising (clampCount t c) ≤ countPlace t.rising last.2 := by
  obtain ⟨hlength, horder⟩ := h
  have hends := horder.head_lt_getLast hlength hfirst hlast
  rw [clampCount_eq _ hfirst hlast]
  obtain hplace | hplace := countPlace_cases t.rising <;> simp only [hplace] at hends ⊢ <;> omega

/-- A count that a segment holds is read back within it (R124, R125). -/
theorem readBack_of_segment {t : AxisTable} {before rest : List Point} {p q : Point} {c : Nat}
    (horder : CountsInOrder t.rising t.points) (hpoints : t.points = before ++ p :: q :: rest)
    (hp : countPlace t.rising p.2 ≤ countPlace t.rising c) (hle : countPlace t.rising c ≤ countPlace t.rising q.2)
    (hq : countPlace t.rising c < countPlace t.rising q.2 ∨ rest = []) :
    readBack t c = some (demandInSegment c (p, q)) := by
  obtain ⟨first, last, hfirst, hlast⟩ := t.exists_ends (by rw [hpoints]; simp; omega)
  rw [hpoints] at horder
  obtain ⟨hbefore, -, hafter⟩ := horder.around
  have hlow : countPlace t.rising first.2 ≤ countPlace t.rising c := by
    refine (hbefore first (List.mem_of_head? ?_)).trans hp
    rw [← hfirst, hpoints]
    cases before <;> rfl
  have hhigh : countPlace t.rising c ≤ countPlace t.rising last.2 := by
    refine hle.trans (hafter last (List.mem_of_getLast? ?_))
    rw [← hlast, hpoints, List.getLast?_append_cons, List.getLast?_cons_cons]
  rw [readBack, clampCount_of_between hfirst hlast hlow hhigh, hpoints, countSegment_of_mem horder hp hq, Option.map_some]

/-- A breakpoint's count reads back its demand (R125). -/
theorem readBack_breakpoint {t : AxisTable} {x : Point} (h : t.ReadsBack) (hx : x ∈ t.points) :
    readBack t x.2 = some x.1 := by
  obtain ⟨hlength, horder⟩ := h
  obtain ⟨before, q, rest, hpoints⟩ | ⟨before, p, hpoints⟩ := exists_segment_of_mem hlength hx
  · have hlt := (hpoints ▸ horder).around.2.1
    rw [readBack_of_segment horder hpoints le_rfl hlt.le (.inl hlt),
      demandInSegment_start (ne_of_countPlace_lt hlt)]
  · have hlt := (hpoints ▸ horder).around.2.1
    rw [readBack_of_segment horder hpoints hlt.le le_rfl (.inr rfl),
      demandInSegment_end (ne_of_countPlace_lt hlt)]

/-- A count limited to a breakpoint's reads back that breakpoint's demand (R125). -/
theorem readBack_of_clampCount_eq {t : AxisTable} {x : Point} {c : Nat} (h : t.ReadsBack) (hx : x ∈ t.points)
    (hc : clampCount t c = x.2) : readBack t c = some x.1 := by
  rw [← readBack_clampCount, hc, readBack_breakpoint h hx]

/-- Every count is read back between the demands of two breakpoints. -/
theorem exists_readBack_between {t : AxisTable} (h : t.ReadsBack) (c : Nat) :
    ∃ d, readBack t c = some d ∧ ∃ p ∈ t.points, ∃ q ∈ t.points, min p.1 q.1 ≤ d ∧ d ≤ max p.1 q.1 := by
  obtain ⟨hlength, horder⟩ := h
  obtain ⟨first, last, hfirst, hlast⟩ := t.exists_ends hlength
  obtain ⟨hlow, hhigh⟩ := countPlace_clampCount ⟨hlength, horder⟩ c hfirst hlast
  obtain ⟨before, p, q, rest, hpoints, hp, hle, hq⟩ := exists_segment_of_between hlength hfirst hlast hlow hhigh
  have hlt := (hpoints ▸ horder).around.2.1
  obtain ⟨hmin, hmax, -⟩ := demandInSegment_between (ne_of_countPlace_lt hlt) (between_of_countPlace hp hle)
  exact ⟨_, (readBack_clampCount t c).symm.trans (readBack_of_segment horder hpoints hp hle hq),
    p, by simp [hpoints], q, by simp [hpoints], hmin, hmax⟩

/-- A count within a segment, as the rule for its direction says it, is read back there and rounded from the segment's
start (R124, R125). -/
theorem exists_readBack_segment {t : AxisTable} (h : t.ReadsBack) {before rest : List Point} {p q : Point} {c : Nat}
    (hpoints : t.points = before ++ p :: q :: rest) (hc : (p.2 ≤ c ∧ c < q.2) ∨ (q.2 < c ∧ c ≤ p.2)) :
    ∃ d, readBack t c = some d ∧ min p.1 q.1 ≤ d ∧ d ≤ max p.1 q.1 ∧
      roundsTo (((q.1 : Int) - p.1) * ((c : Int) - p.2)) ((q.2 : Int) - p.2) ((d : Int) - p.1) := by
  obtain ⟨-, horder⟩ := h
  have hlt := (hpoints ▸ horder).around.2.1
  obtain ⟨hp, hq⟩ : countPlace t.rising p.2 ≤ countPlace t.rising c ∧ countPlace t.rising c < countPlace t.rising q.2 := by
    obtain hplace | hplace := countPlace_cases t.rising <;> simp only [hplace] at hlt ⊢ <;> omega
  exact ⟨_, readBack_of_segment horder hpoints hp hq.le (.inl hq), demandInSegment_between (by omega) (by omega)⟩

/-! ## The tables the store accepts -/

theorem increasing_iff {l : List Nat} : increasing l = true ↔ l.Pairwise (· < ·) := by
  rw [← List.isChain_iff_pairwise]
  fun_induction increasing l with
  | case1 a b rest ih => simp [ih]
  | case2 l h =>
    match l, h with
    | [], _ | [_], _ => simp
    | _ :: _ :: _, h => exact absurd rfl (h _ _ _)

theorem decreasing_iff {l : List Nat} : decreasing l = true ↔ l.Pairwise (· > ·) := by
  rw [← List.isChain_iff_pairwise]
  fun_induction decreasing l with
  | case1 a b rest ih => simp [ih]
  | case2 l h =>
    match l, h with
    | [], _ | [_], _ => simp
    | _ :: _ :: _, h => exact absurd rfl (h _ _ _)

/-- Counts in either order make the table rise or fall accordingly (R124). -/
theorem AxisTable.readsBack_of_countsInOrder {t : AxisTable} {rising : Bool} (hlength : 2 ≤ t.points.length)
    (h : CountsInOrder rising t.points) : t.rising = rising ∧ t.ReadsBack := by
  obtain ⟨first, last, hfirst, hlast⟩ := t.exists_ends hlength
  have hends := countPlace_lt_iff.mp (h.head_lt_getLast hlength hfirst hlast)
  have hrising : t.rising = rising := by
    rw [AxisTable.rising, hfirst, hlast]
    cases rising <;> simp at hends ⊢ <;> omega
  exact ⟨hrising, hlength, by rwa [hrising]⟩

/-- What R94 says of the demands and counts of an accepted table. -/
theorem AxisTable.ordered_of_wf {t : AxisTable} (h : t.wf = true) :
    2 ≤ t.points.length ∧ t.points.Pairwise (fun p q => p.1 < q.1) ∧ ∃ rising, CountsInOrder rising t.points := by
  simp only [AxisTable.wf, Bool.and_eq_true, Bool.or_eq_true, decide_eq_true_eq, increasing_iff, decreasing_iff,
    List.pairwise_map] at h
  obtain ⟨⟨⟨-, -, hlength, -⟩, hdemands⟩, hcounts⟩ := h
  refine ⟨hlength, hdemands, hcounts.elim (fun hup => ⟨true, ?_⟩) fun hdown => ⟨false, ?_⟩⟩
  · exact hup.imp countPlace_lt_iff.mpr
  · exact hdown.imp countPlace_lt_iff.mpr

theorem AxisTable.readsBack_of_wf {t : AxisTable} (h : t.wf = true) : t.ReadsBack := by
  obtain ⟨hlength, -, rising, hcounts⟩ := AxisTable.ordered_of_wf h
  exact (AxisTable.readsBack_of_countsInOrder hlength hcounts).2

/-- Every demand of an accepted table lies between those of its ends. -/
theorem AxisTable.demand_between_ends {t : AxisTable} (h : t.wf = true) {first last : Point}
    (hfirst : t.points.head? = some first) (hlast : t.points.getLast? = some last) {p : Point} (hp : p ∈ t.points) :
    first.1 ≤ p.1 ∧ p.1 ≤ last.1 := by
  obtain ⟨-, hdemands, -⟩ := AxisTable.ordered_of_wf h
  have hdemands : t.points.Pairwise fun p q => p.1 ≤ q.1 := hdemands.imp Nat.le_of_lt
  constructor
  · obtain ⟨rest, hpoints⟩ := List.head?_eq_some_iff.mp hfirst
    rw [hpoints] at hdemands hp
    obtain rfl | hp := List.mem_cons.mp hp
    · exact le_rfl
    · exact (List.pairwise_cons.mp hdemands).1 p hp
  · obtain ⟨before, hpoints⟩ := List.getLast?_eq_some_iff.mp hlast
    rw [hpoints] at hdemands hp
    obtain hp | hp := List.mem_append.mp hp
    · exact (List.pairwise_append.mp hdemands).2.2 p hp last (List.mem_singleton_self _)
    · rw [List.mem_singleton.mp hp]

/-- The comparison of two counts that both read back (R126). -/
theorem compareAxis_of_readBack {tl tr : AxisTable} {cl cr dl dr : Nat} (tolerance : Nat) (hl : readBack tl cl = some dl)
    (hr : readBack tr cr = some dr) :
    compareAxis (some tl) (some tr) (some cl) (some cr) tolerance =
      ⟨true, max dl dr - min dl dr, decide (tolerance < max dl dr - min dl dr)⟩ := by
  have herror : ((dl : Int) - dr).natAbs = max dl dr - min dl dr := by omega
  simp only [compareAxis, hl, hr, herror]

/-- Settles O50: a count is limited to an end or lies in a segment, and either reads back by the rule of its place. -/
theorem readBackDemands : Obligations.ReadBackDemands := by
  unfold Obligations.ReadBackDemands
  refine ⟨fun t hwf first last hfirst hlast => ?table, fun tl tr cl cr tolerance dl dr => compareAxis_of_readBack tolerance⟩
  case table =>
    have h := AxisTable.readsBack_of_wf hwf
    refine ⟨fun p hp => readBack_breakpoint h hp, fun c => ?between, fun c hc => ?first, fun c hc => ?last,
      fun before rest p q c hpoints hc => ?segment⟩
    case between =>
      obtain ⟨d, hd, p, hp, q, hq, hmin, hmax⟩ := exists_readBack_between h c
      have hpends := AxisTable.demand_between_ends hwf hfirst hlast hp
      have hqends := AxisTable.demand_between_ends hwf hfirst hlast hq
      exact ⟨d, hd, by omega, by omega⟩
    case first =>
      exact readBack_of_clampCount_eq h (List.mem_of_head? hfirst) (by rw [clampCount_eq _ hfirst hlast]; omega)
    case last =>
      exact readBack_of_clampCount_eq h (List.mem_of_getLast? hlast) (by rw [clampCount_eq _ hfirst hlast]; omega)
    case segment =>
      obtain ⟨d, hd, hmin, hmax, hround⟩ := exists_readBack_segment h hpoints hc
      obtain ⟨-, hdemands, -⟩ := AxisTable.ordered_of_wf hwf
      rw [hpoints] at hdemands
      have hlt : p.1 < q.1 := (List.pairwise_cons.mp (List.pairwise_append.mp hdemands).2.1).1 q List.mem_cons_self
      exact ⟨d, hd, by omega, by omega, hround⟩

/-! ## The forward computation -/

/-- The table with demands and counts exchanged. -/
def AxisTable.swapped (t : AxisTable) : AxisTable := { t with points := t.points.map Prod.swap }

theorem AxisTable.swapped_points (t : AxisTable) : t.swapped.points = t.points.map Prod.swap := rfl

theorem AxisTable.swapped_head? {t : AxisTable} {first : Point} (h : t.points.head? = some first) :
    t.swapped.points.head? = some first.swap := by
  rw [t.swapped_points, List.head?_map, h, Option.map_some]

theorem AxisTable.swapped_getLast? {t : AxisTable} {last : Point} (h : t.points.getLast? = some last) :
    t.swapped.points.getLast? = some last.swap := by
  rw [t.swapped_points, List.getLast?_map, h, Option.map_some]

theorem AxisTable.swap_mem_swapped {t : AxisTable} {p : Point} (h : p ∈ t.points) : p.swap ∈ t.swapped.points :=
  List.mem_map_of_mem h

/-- The demands of an accepted table rise (R94), so the exchanged table reads back. -/
theorem AxisTable.swapped_readsBack {t : AxisTable} (h : t.wf = true) : t.swapped.rising = true ∧ t.swapped.ReadsBack := by
  obtain ⟨hlength, hdemands, -⟩ := AxisTable.ordered_of_wf h
  refine AxisTable.readsBack_of_countsInOrder (by simpa [t.swapped_points] using hlength) ?_
  exact List.pairwise_map.mpr (hdemands.imp countPlace_lt_iff.mpr)

/-- The first demand of an accepted table is below the last. -/
theorem AxisTable.first_lt_last {t : AxisTable} (h : t.wf = true) {first last : Point}
    (hfirst : t.points.head? = some first) (hlast : t.points.getLast? = some last) : first.1 < last.1 := by
  obtain ⟨hrising, hlength, horder⟩ := AxisTable.swapped_readsBack h
  rw [hrising] at horder
  exact countPlace_lt_iff.mp
    (horder.head_lt_getLast hlength (AxisTable.swapped_head? hfirst) (AxisTable.swapped_getLast? hlast))

/-- The limit of a demand to the table's ends (R117). -/
theorem clampDemand_eq {t : AxisTable} {first last : Point} (h : t.wf = true) (d : Nat)
    (hfirst : t.points.head? = some first) (hlast : t.points.getLast? = some last) :
    clampDemand t d = max first.1 (min d last.1) := by
  have hlt := AxisTable.first_lt_last h hfirst hlast
  simp only [clampDemand, hfirst, hlast]
  split_ifs <;> omega

/-- A demand is limited as a count of the exchanged table is. -/
theorem clampCount_swapped {t : AxisTable} (h : t.wf = true) (d : Nat) : clampCount t.swapped d = clampDemand t d := by
  obtain ⟨hlength, -⟩ := AxisTable.ordered_of_wf h
  obtain ⟨first, last, hfirst, hlast⟩ := t.exists_ends hlength
  have hlt := AxisTable.first_lt_last h hfirst hlast
  rw [clampCount_eq _ (AxisTable.swapped_head? hfirst) (AxisTable.swapped_getLast? hlast), clampDemand_eq h _ hfirst hlast]
  simp only [Prod.snd_swap]
  omega

/-- The segment of a demand is the segment of a count of the exchanged breakpoints. -/
theorem countSegment_map_swap (d : Nat) (points : List Point) :
    countSegment true d (points.map Prod.swap) = (demandSegment d points).map (Prod.map Prod.swap Prod.swap) := by
  fun_induction demandSegment d points with
  | case1 p q rest hd => simp [countSegment, hd]
  | case2 p q rest hd ih =>
    simp only [List.map_cons, countSegment, Prod.snd_swap, List.map_eq_nil_iff, if_true, if_neg hd] at ih ⊢
    exact ih
  | case3 points h =>
    match points, h with
    | [], _ | [_], _ => rfl
    | _ :: _ :: _, h => exact absurd rfl (h _ _ _)

/-- R118 within a segment is R125 with demands and counts exchanged. -/
theorem demandInSegment_swap (d : Nat) (segment : Point × Point) :
    demandInSegment d (segment.map Prod.swap Prod.swap) = idealInSegment d segment := rfl

/-- The forward computation of an accepted table is the read-back of the exchanged one. -/
theorem idealCount_eq_readBack_swapped {t : AxisTable} (h : t.wf = true) (d : Nat) :
    idealCount t d = readBack t.swapped d := by
  obtain ⟨hrising, -⟩ := AxisTable.swapped_readsBack h
  rw [readBack, hrising, clampCount_swapped h, t.swapped_points, countSegment_map_swap, Option.map_map, idealCount]
  exact congrArg (Option.map · _) (funext fun segment => (demandInSegment_swap _ segment).symm)

/-- A demand limited to a breakpoint's has that breakpoint's count (R117, R118). -/
theorem idealCount_of_clampDemand_eq {t : AxisTable} {p : Point} {d : Nat} (h : t.wf = true) (hp : p ∈ t.points)
    (hd : clampDemand t d = p.1) : idealCount t d = some p.2 := by
  rw [idealCount_eq_readBack_swapped h]
  exact readBack_of_clampCount_eq (AxisTable.swapped_readsBack h).2 (AxisTable.swap_mem_swapped hp)
    ((clampCount_swapped h d).trans hd)

/-- Every demand has an ideal count, between the counts of two breakpoints. -/
theorem exists_idealCount_between {t : AxisTable} (h : t.wf = true) (d : Nat) :
    ∃ ideal, idealCount t d = some ideal ∧ (∃ p ∈ t.points, p.2 ≤ ideal) ∧ ∃ p ∈ t.points, ideal ≤ p.2 := by
  obtain ⟨ideal, hideal, x, hx, y, hy, hmin, hmax⟩ := exists_readBack_between (AxisTable.swapped_readsBack h).2 d
  obtain ⟨p, hp, rfl⟩ := List.mem_map.mp hx
  obtain ⟨q, hq, rfl⟩ := List.mem_map.mp hy
  simp only [Prod.fst_swap] at hmin hmax
  refine ⟨ideal, (idealCount_eq_readBack_swapped h d).trans hideal, ?_⟩
  obtain hle | hle := le_total p.2 q.2
  · exact ⟨⟨p, hp, by omega⟩, q, hq, by omega⟩
  · exact ⟨⟨q, hq, by omega⟩, p, hp, by omega⟩

/-- A demand within a segment is interpolated there (R118). -/
theorem exists_idealCount_segment {t : AxisTable} (h : t.wf = true) {before rest : List Point} {p q : Point} {d : Nat}
    (hpoints : t.points = before ++ p :: q :: rest) (hp : p.1 ≤ d) (hq : d < q.1) :
    ∃ ideal, idealCount t d = some ideal ∧
      roundsTo (((q.2 : Int) - p.2) * ((d : Int) - p.1)) ((q.1 : Int) - p.1) ((ideal : Int) - p.2) ∧
      min p.2 q.2 ≤ ideal ∧ ideal ≤ max p.2 q.2 := by
  have hswapped : t.swapped.points = before.map Prod.swap ++ p.swap :: q.swap :: rest.map Prod.swap := by
    simp [t.swapped_points, hpoints]
  obtain ⟨ideal, hideal, hmin, hmax, hround⟩ :=
    exists_readBack_segment (AxisTable.swapped_readsBack h).2 hswapped (.inl ⟨hp, hq⟩)
  exact ⟨ideal, (idealCount_eq_readBack_swapped h d).trans hideal, hround, hmin, hmax⟩

/-! ## The target -/

/-- With no previous target the target is the ideal (R119). -/
theorem slewed_none (slew ideal : Nat) : slewed slew none ideal = ideal := rfl

/-- The move toward the ideal, limited on both sides (R119). -/
theorem slewed_some (slew previous ideal : Nat) :
    (slewed slew (some previous) ideal : Int) = previous + limitAbs slew ((ideal : Int) - previous) := by
  rw [slewed, limitAbs]
  omega

/-- An axis with a table, motorised and with a demand held has the target of its ideal count (R117 to R119). -/
theorem axisTarget_eq {t : AxisTable} {d ideal : Nat} (previous : Option Nat) (h : idealCount t d = some ideal) :
    axisTarget (some t) true (some d) previous =
      some ⟨slewed t.slew previous ideal, decide (clampDemand t d ≠ d), decide (slewed t.slew previous ideal ≠ ideal)⟩ := by
  simp only [axisTarget, h]

/-- An axis with a table has no target exactly where a condition of R117 fails. -/
theorem axisTarget_eq_none_iff {t : AxisTable} (h : t.wf = true) (motorised : Bool) (demand previous : Option Nat) :
    axisTarget (some t) motorised demand previous = none ↔ motorised = false ∨ demand = none := by
  match motorised, demand with
  | false, _ => simp [axisTarget]
  | true, none => simp [axisTarget]
  | true, some d =>
    obtain ⟨ideal, hideal, -⟩ := exists_idealCount_between h d
    simp [axisTarget_eq previous hideal]

/-- A demand is clamped exactly where it lies beyond an end of the table (R117). -/
theorem clampDemand_ne_iff {t : AxisTable} (h : t.wf = true) (d : Nat) :
    clampDemand t d ≠ d ↔
      (∃ p, t.points.head? = some p ∧ d < p.1) ∨ ∃ p, t.points.getLast? = some p ∧ p.1 < d := by
  obtain ⟨hlength, -⟩ := AxisTable.ordered_of_wf h
  obtain ⟨first, last, hfirst, hlast⟩ := t.exists_ends hlength
  have hlt := AxisTable.first_lt_last h hfirst hlast
  simp only [clampDemand_eq h d hfirst hlast, hfirst, hlast, Option.some.injEq, exists_eq_left']
  omega

/-- Settles O49: the ideal count by the place of the demand, the target by the length of the move, and the conditions and
flags of the axis. -/
theorem forwardTargets : Obligations.ForwardTargets := by
  unfold Obligations.ForwardTargets
  refine ⟨fun motorised demand previous => by cases motorised <;> rfl, fun t h => ?_⟩
  obtain ⟨hlength, -⟩ := AxisTable.ordered_of_wf h
  obtain ⟨first, last, hfirst, hlast⟩ := t.exists_ends hlength
  have hclamp (d : Nat) := clampDemand_eq h d hfirst hlast
  have hlt := AxisTable.first_lt_last h hfirst hlast
  refine ⟨fun p hp => ?breakpoint, exists_idealCount_between h, fun d p hp hd => ?below, fun d p hp hd => ?above,
    fun before rest p q d => exists_idealCount_segment h, slewed_none t.slew, fun previous ideal => ?slew,
    fun motorised demand previous => ⟨axisTarget_eq_none_iff h motorised demand previous, ?target⟩⟩
  case breakpoint =>
    obtain ⟨hlow, hhigh⟩ := AxisTable.demand_between_ends h hfirst hlast hp
    exact idealCount_of_clampDemand_eq h hp (by rw [hclamp]; omega)
  case below =>
    obtain rfl := Option.some.inj (hfirst.symm.trans hp)
    exact idealCount_of_clampDemand_eq h (List.mem_of_head? hp) (by rw [hclamp]; omega)
  case above =>
    obtain rfl := Option.some.inj (hlast.symm.trans hp)
    exact idealCount_of_clampDemand_eq h (List.mem_of_getLast? hp) (by rw [hclamp]; omega)
  case slew =>
    have hmove := slewed_some t.slew previous ideal
    rw [limitAbs] at hmove
    omega
  case target =>
    rintro d rfl rfl
    obtain ⟨ideal, hideal, -⟩ := exists_idealCount_between h d
    exact ⟨_, ideal, axisTarget_eq previous hideal, hideal, rfl, decide_eq_true_iff,
      decide_eq_true_iff.trans (clampDemand_ne_iff h d)⟩

end Sys2Proof.Machine
end

