-- ==== Sys2Proof/Proofs/PairRecords.lean ====
section
/-! PROOFS. The derived values of a slot and its record (R123, R139 to R141, R146 to R149): the skews of two reports; the
comparison of an axis, which rests on what one eye brings to it; the lines of the kind and the part of one eye. -/

namespace Sys2Proof.Machine

/-! ## The skews of two reports -/

theorem PairSlot.bothReported_iff (p : PairSlot) :
    p.bothReported = true ↔ ∀ e, (p.parts.get e).state = .reported := by
  rw [PairSlot.bothReported, Bool.and_eq_true, decide_eq_true_eq, decide_eq_true_eq]
  exact ⟨fun ⟨hleft, hright⟩ e => by cases e <;> assumption, fun h => ⟨h .left, h .right⟩⟩

/-- A kept report gives its part's delay (R136). -/
theorem EyePart.delay_of_report {part : EyePart} {k : KeptReport} (h : part.report = some k) : part.delay = k.delay := by
  rw [EyePart.delay, h, Option.map_some, Option.getD_some]

theorem PairSlot.measuredAnchor_of_reports {p : PairSlot} {l r : KeptReport} (hl : p.parts.left.report = some l)
    (hr : p.parts.right.report = some r) : p.measuredAnchor = (l.delay : Int) - r.delay := by
  rw [PairSlot.measuredAnchor, EyePart.delay_of_report hl, EyePart.delay_of_report hr]

/-- The worst-row skew is the greater magnitude of the skews of the two rows (R140). -/
theorem PairSlot.measuredWorst_cast (p : PairSlot) :
    (p.measuredWorst : Int) = max |p.p0 + p.measuredAnchor| |p.p1024 + p.measuredAnchor| := by
  rw [PairSlot.measuredWorst, Nat.cast_max, Int.natCast_natAbs, Int.natCast_natAbs]

theorem State.derive_of_reported (s : State) {p : PairSlot} (h : ∀ e, (p.parts.get e).state = .reported) :
    s.derive p = { p with
      anchorSkew := p.measuredAnchor, worstSkew := p.measuredWorst
      skew := decide (s.ae.frame.skewLimit < p.measuredWorst), lens := .of (s.slotLens p) } :=
  if_pos (p.bothReported_iff.mpr h)

theorem State.derive_of_not_reported (s : State) {p : PairSlot} {e : Eye} (h : (p.parts.get e).state ≠ .reported) :
    s.derive p = p :=
  if_neg fun hboth => h (p.bothReported_iff.mp hboth e)

/-! ## The comparison of an axis -/

/-- What one eye brings to the comparison of an axis (R123): its part is not UNCALIBRATED, its report carries the axis's
count, and it is bound to a slot whose table has the axis. -/
structure State.BringsAxis (s : State) (p : PairSlot) (a : Axis) (e : Eye) (table : AxisTable) (count : Nat) : Prop where
  calibrated : (p.parts.get e).flags.uncalibrated = false
  counted : (p.parts.get e).count a = some count
  bound : ((s.boundTable e).bind fun t => t.axes.get a) = some table

theorem EyePart.count_eq_some_iff {part : EyePart} {a : Axis} {c : Nat} :
    part.count a = some c ↔ ∃ k, part.report = some k ∧ k.counts.get a = some c :=
  Option.bind_eq_some_iff

/-- The axis of the table an eye is bound to, down to the slot that holds it (R105). -/
theorem State.boundAxis_eq_some_iff {s : State} {e : Eye} {a : Axis} {x : AxisTable} :
    ((s.boundTable e).bind fun t => t.axes.get a) = some x ↔
      ∃ j c, s.lts.binding.get e = some j ∧ (s.lts.slot j).contents = some c ∧ c.table.axes.get a = some x := by
  simp only [State.boundTable, Option.bind_eq_some_iff, Option.map_eq_some_iff]
  constructor
  · rintro ⟨-, ⟨j, hbinding, c, hcontents, rfl⟩, haxis⟩
    exact ⟨j, c, hbinding, hcontents, haxis⟩
  · rintro ⟨j, c, hbinding, hcontents, haxis⟩
    exact ⟨c.table, ⟨j, hbinding, c, hcontents, rfl⟩, haxis⟩

theorem State.bringsAxis_iff {s : State} {p : PairSlot} {a : Axis} {e : Eye} {table : AxisTable} {count : Nat} :
    s.BringsAxis p a e table count ↔
      (p.parts.get e).flags.uncalibrated = false ∧
        (∃ k, (p.parts.get e).report = some k ∧ k.counts.get a = some count) ∧
        ∃ j c, s.lts.binding.get e = some j ∧ (s.lts.slot j).contents = some c ∧ c.table.axes.get a = some table := by
  rw [← EyePart.count_eq_some_iff, ← State.boundAxis_eq_some_iff]
  exact ⟨fun ⟨hcal, hcount, hbound⟩ => ⟨hcal, hcount, hbound⟩, fun ⟨hcal, hcount, hbound⟩ => ⟨hcal, hcount, hbound⟩⟩

theorem State.exists_bringsAxis_iff {s : State} {p : PairSlot} {a : Axis} {e : Eye} :
    (∃ table count, s.BringsAxis p a e table count) ↔
      (p.parts.get e).flags.uncalibrated = false ∧
        (∃ k c, (p.parts.get e).report = some k ∧ k.counts.get a = some c) ∧
        ∃ j c x, s.lts.binding.get e = some j ∧ (s.lts.slot j).contents = some c ∧ c.table.axes.get a = some x := by
  simp only [State.bringsAxis_iff]
  constructor
  · rintro ⟨x, n, hcal, ⟨k, hcount⟩, j, c, hbound⟩
    exact ⟨hcal, ⟨k, n, hcount⟩, j, c, x, hbound⟩
  · rintro ⟨hcal, ⟨k, n, hcount⟩, j, c, x, hbound⟩
    exact ⟨x, n, hcal, ⟨k, hcount⟩, j, c, hbound⟩

/-- The contents of a sound store's slots are contents it accepts (R94). -/
theorem State.storeSound.contents_sound {s : State} (h : s.storeSound) {j : Nat} {c : LensImage}
    (hcontents : (s.lts.slot j).contents = some c) : c.sound := by
  obtain ⟨-, -, -, hslots, -⟩ := h
  rw [LensStore.slot, List.getD_eq_getElem?_getD] at hcontents
  cases hslot : s.lts.slots[j]? with
  | none => simp [hslot] at hcontents
  | some slot =>
    rw [hslot, Option.getD_some] at hcontents
    exact (hslots slot (List.mem_of_getElem? hslot)).1 c hcontents

/-- A count reads back from the table a sound store gives it. -/
theorem State.BringsAxis.exists_readBack {s : State} {p : PairSlot} {a : Axis} {e : Eye} {table : AxisTable} {count : Nat}
    (h : s.BringsAxis p a e table count) (hs : s.storeSound) : ∃ d, readBack table count = some d := by
  obtain ⟨j, c, -, hcontents, haxis⟩ := State.boundAxis_eq_some_iff.mp h.bound
  obtain ⟨⟨-, haxes⟩, -⟩ := hs.contents_sound hcontents
  obtain ⟨d, hd, -⟩ := exists_readBack_between (AxisTable.readsBack_of_wf (haxes a table haxis).1) count
  exact ⟨d, hd⟩

/-- Two eyes that both bring the axis have their counts compared, by their tables and the tolerance (R123, R126). -/
theorem State.slotLens_of_bringsAxis {s : State} {p : PairSlot} {a : Axis} {table : Eye → AxisTable} {count : Eye → Nat}
    (h : ∀ e, s.BringsAxis p a e (table e) (count e)) :
    s.slotLens p a = compareAxis (some (table .left)) (some (table .right)) (some (count .left)) (some (count .right))
      (s.ae.frame.tolerance.get a) := by
  have ⟨hcalL, hcountL, hboundL⟩ := h .left
  have ⟨hcalR, hcountR, hboundR⟩ := h .right
  simp only [PerEye_left, PerEye_right] at hcalL hcountL hcalR hcountR
  rw [State.slotLens, hcalL, hcalR, hcountL, hcountR, hboundL, hboundR]
  rfl

/-- A comparison that is made has both tables and both counts. -/
theorem exists_of_compareAxis_ne {tl tr : Option AxisTable} {cl cr : Option Nat} {tolerance : Nat}
    (h : compareAxis tl tr cl cr tolerance ≠ notCompared) :
    (∃ t c, tl = some t ∧ cl = some c) ∧ ∃ t c, tr = some t ∧ cr = some c := by
  match tl, tr, cl, cr with
  | some tl, some tr, some cl, some cr => exact ⟨⟨tl, cl, rfl, rfl⟩, tr, cr, rfl, rfl⟩
  | none, _, _, _ | some _, none, _, _ | some _, some _, none, _ | some _, some _, some _, none => exact absurd rfl h

/-- An axis that one eye does not bring is not compared (R123). -/
theorem State.slotLens_eq_notCompared {s : State} {p : PairSlot} {a : Axis}
    (h : ¬ ∀ e, ∃ table count, s.BringsAxis p a e table count) : s.slotLens p a = notCompared := by
  by_contra hne
  rw [State.slotLens] at hne
  split at hne
  case isTrue => exact hne rfl
  case isFalse hcal =>
    rw [Bool.or_eq_true, not_or, Bool.not_eq_true, Bool.not_eq_true] at hcal
    obtain ⟨hcalL, hcalR⟩ := hcal
    obtain ⟨⟨tl, cl, htl, hcl⟩, tr, cr, htr, hcr⟩ := exists_of_compareAxis_ne hne
    refine h fun e => ?_
    match e with
    | .left => exact ⟨tl, cl, hcalL, hcl, htl⟩
    | .right => exact ⟨tr, cr, hcalR, hcr, htr⟩

/-- Two eyes that both bring the axis, with their counts read back (R126). -/
theorem State.slotLens_of_readBack {s : State} {p : PairSlot} {a : Axis} {table : Eye → AxisTable}
    {count demand : Eye → Nat} (h : ∀ e, s.BringsAxis p a e (table e) (count e))
    (hread : ∀ e, readBack (table e) (count e) = some (demand e)) :
    s.slotLens p a =
      ⟨true, max (demand .left) (demand .right) - min (demand .left) (demand .right),
        decide (s.ae.frame.tolerance.get a <
          max (demand .left) (demand .right) - min (demand .left) (demand .right))⟩ :=
  (State.slotLens_of_bringsAxis h).trans (compareAxis_of_readBack _ (hread .left) (hread .right))

/-- With a sound store an axis is compared exactly when both eyes bring it (R123). -/
theorem State.slotLens_compared_iff {s : State} (hs : s.storeSound) (p : PairSlot) (a : Axis) :
    (s.slotLens p a).compared = true ↔ ∀ e, ∃ table count, s.BringsAxis p a e table count := by
  constructor
  · intro hcompared
    by_contra h
    rw [State.slotLens_eq_notCompared h] at hcompared
    exact Bool.noConfusion hcompared
  · intro h
    choose table count h using h
    choose demand hread using fun e => (h e).exists_readBack hs
    rw [State.slotLens_of_readBack h hread]

/-! ## The record -/

theorem PairSlot.kind_of_skipped {p : PairSlot} (h : p.skipped = true) : p.kind = .skipped := if_pos h

theorem PairSlot.kind_of_missing {p : PairSlot} (h : p.skipped = false) {e : Eye}
    (hmissing : (p.parts.get e).state = .missing) : p.kind = .orphan := by
  rw [PairSlot.kind, h, if_neg Bool.false_ne_true, if_pos]
  cases e with
  | left => exact .inl hmissing
  | right => exact .inr hmissing

/-- With no part MISSING the kind is PAIRED or SINGLE (R146). -/
theorem PairSlot.kind_of_not_missing {p : PairSlot} (h : p.skipped = false)
    (hmissing : ∀ e, (p.parts.get e).state ≠ .missing) :
    p.kind = if p.bothReported then .paired else .single := by
  rw [PairSlot.kind, h, if_neg Bool.false_ne_true, if_neg]
  rintro (hleft | hright)
  · exact hmissing .left hleft
  · exact hmissing .right hright

theorem PairSlot.kind_of_reported {p : PairSlot} (h : p.skipped = false)
    (hreported : ∀ e, (p.parts.get e).state = .reported) : p.kind = .paired := by
  rw [PairSlot.kind_of_not_missing h fun e => by simp [hreported e], if_pos (p.bothReported_iff.mpr hreported)]

theorem PairSlot.kind_of_single {p : PairSlot} (h : p.skipped = false) {e : Eye}
    (hreported : (p.parts.get e).state = .reported) (habsent : (p.parts.get e.other).state = .absent) :
    p.kind = .single := by
  have hmissing : ∀ e', (p.parts.get e').state ≠ .missing := by
    intro e'
    obtain rfl | rfl : e' = e ∨ e' = e.other := by cases e <;> cases e' <;> decide
    · simp [hreported]
    · simp [habsent]
  have hboth : ¬ p.bothReported = true := fun hboth => by simp [p.bothReported_iff.mp hboth e.other] at habsent
  rw [PairSlot.kind_of_not_missing h hmissing, if_neg hboth]

theorem PairSlot.record_parts_get (p : PairSlot) (lost : PerEye Nat) (e : Eye) :
    (p.record lost).parts.get e = (p.parts.get e).record (lost.get e) := by
  cases e <;> rfl

/-- LENS_MISMATCH is set when the comparison of some axis is (R148). -/
theorem PairSlot.record_lensMismatch_iff (p : PairSlot) (lost : PerEye Nat) :
    (p.record lost).lensMismatch = true ↔ ∃ a, (p.lens.get a).mismatch = true := by
  simp only [PairSlot.record, PerAxis.any, Bool.or_eq_true]
  constructor
  · rintro ((hfocus | hiris) | hzoom)
    · exact ⟨.focus, hfocus⟩
    · exact ⟨.iris, hiris⟩
    · exact ⟨.zoom, hzoom⟩
  · rintro ⟨a, h⟩
    cases a with
    | focus => exact .inl (.inl h)
    | iris => exact .inl (.inr h)
    | zoom => exact .inr h

/-- The eye state of a part by its state and whether it was triggered (R149). -/
theorem EyePart.outcome_eq (part : EyePart) :
    part.outcome = match part.state, part.triggered with
      | .reported, _ => .reported
      | .absent, _ => .absent
      | _, true => .missingTriggered
      | _, false => .missingUntriggered := by
  rw [EyePart.outcome]
  cases part.state <;> cases part.triggered <;> rfl

/-- A figure of the kept report in the record: that of a REPORTED part, and 0 from any other (R149). -/
theorem EyePart.ofReport_eq {α : Type} [Zero α] (part : EyePart) (f : KeptReport → α) :
    (if part.state = .reported then (part.report.map f).getD 0 else 0) =
      match part.state, part.report with | .reported, some k => f k | _, _ => 0 := by
  cases part.state <;> cases part.report <;> rfl

/-- The eye part of the record, with what is reported only of a REPORTED part (R149, R150). -/
theorem EyePart.record_eq (part : EyePart) (lostReports : Nat) :
    part.record lostReports =
      { outcome := match part.state, part.triggered with
          | .reported, _ => .reported
          | .absent, _ => .absent
          | _, true => .missingTriggered
          | _, false => .missingUntriggered
        trigger := if part.triggered then part.trigger else 0
        offset := part.offset
        delay := match part.state, part.report with | .reported, some k => k.delay | _, _ => 0
        status := match part.state, part.report with | .reported, some k => k.status | _, _ => 0
        lostReports := lostReports, stale := part.stale, flags := part.flags, lost := part.lost } := by
  rw [EyePart.record, EyePart.outcome_eq, EyePart.delay, EyePart.ofReport_eq, EyePart.ofReport_eq]

/-- Settles O52: two reports give the skews; an axis is compared when both eyes bring it, and both counts read back then;
the kind is the first line that holds, and the record's parts are those of the two eyes. -/
theorem slotValuesAndRecords : Obligations.SlotValuesAndRecords := by
  unfold Obligations.SlotValuesAndRecords
  refine ⟨fun s p h l r hl hr skew hskew => ?derived, fun s p e h => s.derive_of_not_reported h,
    fun s p a hs comparable hcomparable => ?axis, ?record⟩
  case derived =>
    have hanchor : p.measuredAnchor = skew := (PairSlot.measuredAnchor_of_reports hl hr).trans hskew.symm
    refine ⟨fun hlmax hrmax => by omega, p.measuredWorst, ?_, ?_⟩
    · rw [p.measuredWorst_cast, hanchor]
    · rw [s.derive_of_reported h, hanchor]
  case axis =>
    simp only [← State.exists_bringsAxis_iff] at hcomparable
    subst hcomparable
    refine ⟨State.slotLens_compared_iff hs p a, State.slotLens_eq_notCompared, fun table count demand h => ?_⟩
    refine State.slotLens_of_readBack (table := table) (count := count) (fun e => ?_) fun e => ?_
    · obtain ⟨hcal, hcount, hbound, -⟩ := h e
      exact State.bringsAxis_iff.mpr ⟨hcal, hcount, hbound⟩
    · obtain ⟨-, -, -, hread⟩ := h e
      exact hread
  case record =>
    rintro p lost r rfl -
    refine ⟨PairSlot.kind_of_skipped, fun hs ⟨_, hmissing⟩ => PairSlot.kind_of_missing hs hmissing,
      PairSlot.kind_of_reported, fun hs ⟨_, hreported, habsent⟩ => PairSlot.kind_of_single hs hreported habsent,
      rfl, rfl, rfl, rfl, rfl, rfl, rfl, rfl, rfl, rfl, rfl, rfl, rfl, rfl, rfl, rfl, p.record_lensMismatch_iff lost,
      fun e => ?_⟩
    exact (p.record_parts_get lost e).trans (EyePart.record_eq _ _)

end Sys2Proof.Machine
end

