-- ==== Sys2Proof/Proofs/ClearNotices.lean ====
section
/-! PROOFS. CLEAR_NOTICES (R169): what the notice set holds after the named notices leave it, when ATTN# is high (R168), one
equation for each outcome of the request as a command, then the statement from them. -/

namespace Sys2Proof.Machine

/-! ## The notice set -/

/-- The notices are coded in the eight bits of the set (10.7). -/
theorem Notice.bit_lt (n : Notice) : n.bit < 8 := by
  cases n <;> decide

/-- Each bit of the set is that of a notice (10.7). -/
theorem Notice.exists_bit_eq : ∀ i < 8, ∃ n : Notice, n.bit = i
  | 0, _ => ⟨.eyeChange, rfl⟩
  | 1, _ => ⟨.noCommonMode, rfl⟩
  | 2, _ => ⟨.storeDone, rfl⟩
  | 3, _ => ⟨.storeBad, rfl⟩
  | 4, _ => ⟨.queueOverflow, rfl⟩
  | 5, _ => ⟨.refLost, rfl⟩
  | 6, _ => ⟨.refBack, rfl⟩
  | 7, _ => ⟨.resetSeen, rfl⟩

/-- The set is empty exactly when it holds none of the eight notices. -/
theorem notices_eq_zero_iff (set : BitVec 8) : set = 0 ↔ ∀ n : Notice, hasNotice set n = false := by
  constructor
  · rintro rfl n
    exact BitVec.getLsbD_zero
  · intro h
    refine BitVec.eq_of_getLsbD_eq fun i hi => ?_
    obtain ⟨n, rfl⟩ := Notice.exists_bit_eq i hi
    exact (h n).trans BitVec.getLsbD_zero.symm

/-- Outside a reset ATTN# is high exactly when the set holds no notice (R168). -/
theorem State.attnHigh_iff_of_not_held {s : State} (h : s.isHeld = false) :
    s.attnHigh = true ↔ ∀ n : Notice, hasNotice s.rcp.notices n = false := by
  rw [← notices_eq_zero_iff, State.attnHigh, h, Bool.false_or, beq_iff_eq]

/-- The first byte of the request's field names the notices its bits name (10.7). -/
@[simp] theorem hasNotice_setWidth (mask : BitVec 16) (n : Notice) :
    hasNotice (mask.setWidth 8) n = mask.getLsbD n.bit := by
  simp [hasNotice, n.bit_lt]

/-- A notice stays in the set exactly when it was there and is not named. -/
theorem RigPort.hasNotice_clearNamed (named : BitVec 8) (r : RigPort) (n : Notice) :
    hasNotice (r.clearNamed named).notices n = (hasNotice r.notices n && !hasNotice named n) := by
  simp [RigPort.clearNamed, hasNotice, n.bit_lt]

/-- Beside the notices, the clearing changes the reset-cause record alone, which naming RESET_SEEN clears (R176). -/
theorem RigPort.clearNamed_eq (named : BitVec 8) (r : RigPort) :
    r.clearNamed named =
      { r with
        notices := (r.clearNamed named).notices
        cause := if hasNotice named .resetSeen then ⟨false, false, false⟩ else r.cause } := rfl

/-! ## CLEAR_NOTICES -/

/-- A field that names an undefined notice is refused, and nothing is cleared. -/
theorem exec_clearNotices_range {mask : BitVec 16} (pad : Nat) {s : State} (hs : s.rcpServes) (h : 256 ≤ mask.toNat) :
    exec (.clearNotices mask pad) s = .next { s with rcp := s.rcpAnswer (.clearNotices mask) pad .range } := by
  rw [exec_clearNotices_serves _ _ _ hs, decideClearNotices, if_pos h]
  exact congrArg _ (answer_rcpClosed (.clearNotices mask) pad .range s)

/-- A field of defined notices clears those it names in the rig control port, which alone changes. -/
theorem exec_clearNotices_done {mask : BitVec 16} (pad : Nat) {s : State} (hs : s.rcpServes) (h : mask.toNat < 256) :
    exec (.clearNotices mask pad) s = .next
      { s with rcp := (s.rcpAnswer (.clearNotices mask) pad .done).clearNamed (mask.setWidth 8) } := by
  rw [exec_clearNotices_serves _ _ _ hs, decideClearNotices, if_neg (Nat.not_le.mpr h)]
  rfl

/-- Settles O11: a field with an undefined notice is refused; otherwise the named notices leave the set bit by bit, and ATTN#
follows the set because no reset is in force. -/
theorem clearNoticesRequests : Obligations.ClearNoticesRequests := by
  unfold Obligations.ClearNoticesRequests
  intro s mask pad hs
  refine ⟨exec_clearNotices_range pad hs, fun h => ⟨_, exec_clearNotices_done pad hs h, ?port, fun n => ?notice, ?attn⟩⟩
  case port =>
    have hport := RigPort.clearNamed_eq (mask.setWidth 8) (s.rcpAnswer (.clearNotices mask) pad .done)
    rw [hasNotice_setWidth] at hport
    exact congrArg (fun r => { s with rcp := r }) hport
  case notice =>
    rw [RigPort.hasNotice_clearNamed, hasNotice_setWidth]
    rfl
  case attn =>
    obtain ⟨hheld, -⟩ := hs
    exact State.attnHigh_iff_of_not_held hheld

end Sys2Proof.Machine
end

section
/-! PROOFS. What a step can do: one move for each way in which a command's meaning changes the part. Every invariant is
proved move by move, without unfolding the dispatch again (O1, O3). -/

namespace Sys2Proof.Machine

/-- Where the judgement of a rig control transaction comes from: the bytes of a command known by its bits, the request a
command carries, or the FORMAT of a request that cannot be framed (R163). -/
inductive Judged : Instr → Verdict → Prop
  | bits (b : List Bool) : Judged (.rcpRecordRefused b) (judgeTransaction (wholeBytes b))
  | collection (count : Nat) : Judged (.collection count) (judgeTransaction (wholeBytes (List.replicate count false)))
  | request (c : Instr) (r : Request) (pad : Nat) (h : requestCommand r pad = some c) : Judged c (.request r)
  | unframed (c : Instr) (echo : Byte) : Judged c (.format echo)

/-- What a command does to the part: each operation that a command's meaning can come to, with the conditions under which it
does. -/
inductive Move (s : State) : Instr → State → Prop
  | nothing (c : Instr) : Move s c s
  | rcpStart (early : Nat) : Move s (.rcpTransactionStart early) (rcpStart early s)
  | judged (c : Instr) (n : Nat) (v : Verdict) (h : Judged c v) : Move s c (rcpEnd n (actOn v) s)
  | eyeStart (e : Eye) (early : Nat) : Move s (.eyeTransactionStart e early) (eyeStart e early s)
  | eyeEnd (c : Instr) (e : Eye) (n : Nat) (r : Option Report) : Move s c (eyeEnd e n r s)
  | capsTaken (e : Eye) (raw : RawCaps) (h : (s.eye e).slot = some (.caps raw)) :
      Move s (.capsTaken e) (takeCaps e raw (emptySlot e s))
  | acceptTaken (e : Eye) (index : Byte) (h : (s.eye e).slot = some (.accept index)) :
      Move s (.acceptTaken e) (takeAccept e index (emptySlot e s))
  | refuseTaken (e : Eye) (index : Byte) (h : (s.eye e).slot = some (.refuse index)) :
      Move s (.refuseTaken e) (takeRefuse e index (emptySlot e s))
  | frameTaken (e : Eye) (f : RawFrame) (h : (s.eye e).slot = some (.frame f)) :
      Move s (.frameTaken e) (matchFrame e f (emptySlot e s))
  | presLevel (c : Instr) (e : Eye) (b : Bool) (h : s.isHeld = true) :
      Move s c (s.mapEye e fun p => { p with pres := b })
  | presRise (e : Eye) (h : s.isHeld = false) (hp : (s.eye e).pres = false) :
      Move s (.presRise e) (s.mapEye e EyePort.rise)
  | presFall (e : Eye) (h : s.isHeld = false) (hp : (s.eye e).pres = true) :
      Move s (.presFall e) (s.mapEye e EyePort.fall)
  | settled (e : Eye) (n : Nat) (h : (s.eye e).settleLeft = some n) : Move s (.settleComplete e) (settleEye e (advance n s))
  | detached (e : Eye) (n : Nat) (h : (s.eye e).detachLeft = some n) : Move s (.detach e) (leaveAttached e (advance n s))
  | rollingMark (m : Time) (h : s.dueMark .rolling = some m) : Move s .rollingMark (rollingMarkEvent m s)
  | planComplete : Move s .planComplete (completePlan s)
  | drainMark (m : Time) (h : s.dueMark .drain = some m) : Move s .drainMark (drainMarkEvent m s)
  | leadMark (m : Time) (h : s.dueMark .lead = some m) : Move s .leadMark (leadMarkEvent m s)
  | setupMark (m : Time) (h : s.dueMark .setupReference = some m) : Move s .setupReferenceMark (setupMarkEvent m s)
  | refinEdge : Move s .refinEdge (refEdge s)
  | windowClose (w : RefWindow) (p : Nat) (hw : s.cg.window = some w) (hp : s.cg.period = some p) :
      Move s .refWindowClose (closeRefWindow w p s)
  | pulse (e : Eye) (p : Pulse) (h : earliestPulse s.timebase (s.tp.pulses.get e) = some p)
      (hin : (s.eye e).state.inTake = true) : Move s (.triggerPulse e) (firePulse e p (waitUntil p.time s))
  | pulseEnd (e : Eye) (t : Time) (h : (s.eye e).trig = some t) :
      Move s (.trigPulseEnd e) ((waitUntil (after t Config.pulseTicks) s).mapEye e fun p => { p with trig := none })
  | saveComplete : Move s .saveComplete (completeSave s)
  | loadComplete : Move s .loadComplete (completeLoad s)
  | pairStart (early : Nat) : Move s (.pairReadStart early) (pairStart early s)
  | pairEnd (n : Nat) : Move s (.pairReadEnd n) (pairEnd n s)
  | reset (c : Instr) (k : ResetKind) : Move s c (enforceReset k s)
  | release (k : ResetKind) : Move s (.resetRelease k) (endReset k s)

/-- A request's command ends a judged transaction: with the request's own decision, or FORMAT where it cannot be framed. -/
theorem Move.request {c : Instr} (r : Request) (pad : Nat) (h : requestCommand r pad = some c) (s : State) :
    Move s c (rcpRequest r pad (decideRequest r) s) := by
  unfold rcpRequest
  split
  · exact .judged c _ (.request r) (.request c r pad h)
  · exact .judged c _ (.format (requestKind r)) (.unframed c _)

/-- Every command completes, with one of the moves. -/
theorem exec_move (c : Instr) (s : State) : ∃ t, exec c s = .next t ∧ Move s c t := by
  cases c with
  | profile p pad => exact ⟨_, rfl, .request (.profile p) pad rfl s⟩
  | source code pad => exact ⟨_, rfl, .request (.source code) pad rfl s⟩
  | rate target marks pad => exact ⟨_, rfl, .request (.rate target marks) pad rfl s⟩
  | shutter mode value pad => exact ⟨_, rfl, .request (.shutter mode value) pad rfl s⟩
  | demand axes focus iris zoom pad => exact ⟨_, rfl, .request (.demand axes focus iris zoom) pad rfl s⟩
  | roll pad => exact ⟨_, rfl, .request .roll pad rfl s⟩
  | cut pad => exact ⟨_, rfl, .request .cut pad rfl s⟩
  | portEnable eye pad => exact ⟨_, rfl, .request (.port eye 1) pad rfl s⟩
  | portDisable eye pad => exact ⟨_, rfl, .request (.port eye 0) pad rfl s⟩
  | stageReset pad => exact ⟨_, rfl, .request .stageReset pad rfl s⟩
  | stageWrite offset data pad => exact ⟨_, rfl, .request (.stageWrite offset data) pad rfl s⟩
  | commit slot pad => exact ⟨_, rfl, .request (.commit slot) pad rfl s⟩
  | discard slot pad => exact ⟨_, rfl, .request (.discard slot) pad rfl s⟩
  | save slot pad => exact ⟨_, rfl, .request (.save slot) pad rfl s⟩
  | readSlot slot offset length pad => exact ⟨_, rfl, .request (.readSlot slot offset length) pad rfl s⟩
  | query pad => exact ⟨_, rfl, .request .query pad rfl s⟩
  | clearNotices mask pad => exact ⟨_, rfl, .request (.clearNotices mask) pad rfl s⟩
  | reset pad => exact ⟨_, rfl, .request .reset pad rfl s⟩
  | rcpTransactionStart early => exact ⟨_, rfl, .rcpStart early⟩
  | collection count => exact ⟨_, rfl, .judged _ _ _ (.collection count)⟩
  | rcpRecordRefused bits => exact ⟨_, rfl, .judged _ _ _ (.bits bits)⟩
  | eyeTransactionStart e early => exact ⟨_, rfl, .eyeStart e early⟩
  | capsReceived e caps pad => exact ⟨_, rfl, .eyeEnd _ e _ _⟩
  | acceptReceived e index pad => exact ⟨_, rfl, .eyeEnd _ e _ _⟩
  | refuseReceived e index pad => exact ⟨_, rfl, .eyeEnd _ e _ _⟩
  | frameReceived e frame pad => exact ⟨_, rfl, .eyeEnd _ e _ _⟩
  | idle e pad => exact ⟨_, rfl, .eyeEnd _ e _ _⟩
  | reportDiscarded e bits => exact ⟨_, rfl, .eyeEnd _ e _ _⟩
  | capsTaken e =>
    simp only [exec, execCapsTaken]
    split
    · next raw h => exact ⟨_, rfl, .capsTaken e raw h⟩
    · exact ⟨_, rfl, .nothing _⟩
  | acceptTaken e =>
    simp only [exec, execAcceptTaken]
    split
    · next index h => exact ⟨_, rfl, .acceptTaken e index h⟩
    · exact ⟨_, rfl, .nothing _⟩
  | refuseTaken e =>
    simp only [exec, execRefuseTaken]
    split
    · next index h => exact ⟨_, rfl, .refuseTaken e index h⟩
    · exact ⟨_, rfl, .nothing _⟩
  | frameTaken e =>
    simp only [exec, execFrameTaken]
    split
    · next f h => exact ⟨_, rfl, .frameTaken e f h⟩
    · exact ⟨_, rfl, .nothing _⟩
  | presRise e =>
    simp only [exec, execPresRise]
    split
    · next h => exact ⟨_, rfl, .presLevel _ e true h⟩
    · next h =>
      split
      · exact ⟨_, rfl, .nothing _⟩
      · next hp => exact ⟨_, rfl, .presRise e (by simpa using h) (by simpa using hp)⟩
  | presFall e =>
    simp only [exec, execPresFall]
    split
    · next h => exact ⟨_, rfl, .presLevel _ e false h⟩
    · next h =>
      split
      · exact ⟨_, rfl, .nothing _⟩
      · next hp => exact ⟨_, rfl, .presFall e (by simpa using h) (by simpa using hp)⟩
  | settleComplete e =>
    simp only [exec, execSettleComplete]
    split
    · next n h => exact ⟨_, rfl, .settled e n h⟩
    · exact ⟨_, rfl, .nothing _⟩
  | detach e =>
    simp only [exec, execDetach]
    split
    · next n h => exact ⟨_, rfl, .detached e n h⟩
    · exact ⟨_, rfl, .nothing _⟩
  | rollingMark =>
    simp only [exec, execRollingMark]
    split
    · next m h => exact ⟨_, rfl, .rollingMark m h⟩
    · exact ⟨_, rfl, .nothing _⟩
  | planComplete => exact ⟨_, rfl, .planComplete⟩
  | drainMark =>
    simp only [exec, execDrainMark]
    split
    · next m h => exact ⟨_, rfl, .drainMark m h⟩
    · exact ⟨_, rfl, .nothing _⟩
  | leadMark =>
    simp only [exec, execLeadMark]
    split
    · next m h => exact ⟨_, rfl, .leadMark m h⟩
    · exact ⟨_, rfl, .nothing _⟩
  | setupReferenceMark =>
    simp only [exec, execSetupReferenceMark]
    split
    · next m h => exact ⟨_, rfl, .setupMark m h⟩
    · exact ⟨_, rfl, .nothing _⟩
  | refinEdge => exact ⟨_, rfl, .refinEdge⟩
  | refWindowClose =>
    simp only [exec, execRefWindowClose]
    split
    · next w p hw hp =>
      split
      · exact ⟨_, rfl, .windowClose w p hw hp⟩
      · exact ⟨_, rfl, .nothing _⟩
    · exact ⟨_, rfl, .nothing _⟩
  | triggerPulse e =>
    simp only [exec, execTriggerPulse]
    split
    · next p h =>
      split
      · next hin => exact ⟨_, rfl, .pulse e p h hin⟩
      · exact ⟨_, rfl, .nothing _⟩
    · exact ⟨_, rfl, .nothing _⟩
  | trigPulseEnd e =>
    simp only [exec, execTrigPulseEnd]
    split
    · next t h => exact ⟨_, rfl, .pulseEnd e t h⟩
    · exact ⟨_, rfl, .nothing _⟩
  | saveComplete => exact ⟨_, rfl, .saveComplete⟩
  | loadComplete => exact ⟨_, rfl, .loadComplete⟩
  | pairReadStart early => exact ⟨_, rfl, .pairStart early⟩
  | pairReadEnd count => exact ⟨_, rfl, .pairEnd count⟩
  | powerOnReset => exact ⟨_, rfl, .reset _ .powerOn⟩
  | pinReset lowTicks =>
    simp only [exec, execPinReset]
    split
    · exact ⟨_, rfl, .reset _ .pin⟩
    · exact ⟨_, rfl, .nothing _⟩
  | resetRelease kind => exact ⟨_, rfl, .release kind⟩

theorem move_of_exec {c : Instr} {s t : State} (h : exec c s = .next t) : Move s c t := by
  obtain ⟨t', h', hm⟩ := exec_move c s
  rw [h] at h'
  obtain rfl : t = t' := by injection h'
  exact hm

/-- An invariant that does not look at the queue, that a tick keeps and that every move keeps, is kept by a step. -/
theorem step_keeps {P : State → Prop} (pending : ∀ s q, P s → P { s with pending := q }) (clock : ∀ s, P s → P (tick s))
    (moves : ∀ c s t, P s → Move s c t → P t) {s t : State} (hs : P s) (h : step s = .next t) : P t := by
  unfold step at h
  split at h
  · obtain rfl : tick s = t := by injection h
    exact clock s hs
  · next c rest _ => exact moves c _ t (pending s rest hs) (move_of_exec h)

/-- Settles O1: a step takes the front of the queue by its definition. -/
theorem stepRunsFrontCommand : Obligations.StepRunsFrontCommand := fun _ _ => rfl

end Sys2Proof.Machine
end

section
/-! PROOFS. How a rig control transaction ends, whatever it decides; the queue of commands under every move (O3). -/

namespace Sys2Proof.Machine

/-- The rig control port closed after a transaction in which C_SDO carried `sent`. -/
def State.rcpShut (s : State) (sent : List Bool) : State :=
  { s with rcp := { s.rcp with selLow := false, txn := none, sent := sent } }

@[simp] theorem rcpShut_frame (s : State) (l : List Bool) :
    (s.rcpShut l).timebase = s.timebase ∧ (s.rcpShut l).cg = s.cg ∧ (s.rcpShut l).eyes = s.eyes ∧
    (s.rcpShut l).ae = s.ae ∧ (s.rcpShut l).tp = s.tp ∧ (s.rcpShut l).lts = s.lts ∧ (s.rcpShut l).lme = s.lme ∧
    (s.rcpShut l).pe = s.pe ∧ (s.rcpShut l).pq = s.pq ∧ (s.rcpShut l).resets = s.resets ∧
    (s.rcpShut l).pending = s.pending ∧ (s.rcpShut l).rcp.txn = none ∧ (s.rcpShut l).rcp.notices = s.rcp.notices := by
  simp [State.rcpShut]

/-- The end of a rig control transaction closes the port and then, where the transaction is judged, decides. A held part
judges none whose transaction record a reset has emptied. -/
theorem rcpEnd_cases (n : Nat) (d : State → State) (s : State) :
    ∃ sent, rcpEnd n d s = s.rcpShut sent ∨
      (rcpEnd n d s = d (s.rcpShut sent) ∧ (s.isHeld = true → s.rcp.txn.isSome = true)) := by
  unfold rcpEnd
  by_cases hl : s.rcp.selLow = true
  · cases ht : s.rcp.txn with
    | none => exact ⟨_, .inl (by simp [rcpStart, hl, ht, State.mapRcp]; rfl)⟩
    | some t => exact ⟨_, .inr ⟨by simp [rcpStart, hl, ht, State.mapRcp]; rfl, by simp⟩⟩
  · by_cases hh : s.isHeld = true
    · exact ⟨_, .inl (by simp [rcpStart, hl, hh, State.mapRcp]; rfl)⟩
    · exact ⟨_, .inr ⟨by simp [rcpStart, hl, hh, State.mapRcp]; rfl, by simp [hh]⟩⟩

/-- What the end of every judged transaction has: what the closed port has, what it has with an answer stored, and what it
has after every request's decision. -/
theorem judged_keeps {P : State → Prop} (n : Nat) (v : Verdict) {s : State} (shut : ∀ l, P (s.rcpShut l))
    (answers : ∀ l kind code, P (answer kind code (s.rcpShut l)))
    (requests : ∀ l r, P (decideRequest r (s.rcpShut l))) : P (rcpEnd n (actOn v) s) := by
  obtain ⟨l, h | ⟨h, -⟩⟩ := rcpEnd_cases n (actOn v) s <;> rw [h]
  · exact shut l
  · cases v with
    | collection => exact shut l
    | format echo => exact answers l echo .format
    | unknown echo => exact answers l echo .unknown
    | request r => exact requests l r

/-- What the decision of a request does to the part, before its response is stored: nothing, or the one operation of an
accepted request, with the conditions under which it is accepted. RESET, whose reset empties the response, is apart. -/
inductive Decision (s : State) : Request → State → Prop
  | unchanged (r : Request) : Decision s r s
  | profile (p : RawProfile) (f : TakeFrame) (hrig : s.cg.rig = .setup) (hf : readTakeFrame p = some f) :
      Decision s (.profile p) (runChoice none (clearExclusion (s.mapAe fun a => { a with frame := f })))
  | toRef (code : Byte) (hrig : s.cg.rig = .setup) : Decision s (.source code) (s.mapCg Cadence.toRef)
  | toFree (code : Byte) (hrig : s.cg.rig = .setup) : Decision s (.source code) (s.mapCg Cadence.toFree)
  | rate (target : BitVec 32) (marks : BitVec 16) (hsource : s.cg.source ≠ .ref) :
      Decision s (.rate target marks) (s.mapCg (Cadence.setRate (limitedRate s.ae.ceiling target.toNat) marks.toNat))
  | shutter (mode : Byte) (value : BitVec 32) (m : ShutterMode) :
      Decision s (.shutter mode value)
        (s.mapTp fun t => { t with shutterMode := m, shutterValue := limitedShutter m value.toNat })
  | demand (axes : Byte) (focus iris zoom : BitVec 16) :
      Decision s (.demand axes focus iris zoom)
        (s.mapLme fun l => { l with demand := newDemand (axisSet axes) ⟨focus.toNat, iris.toNat, zoom.toNat⟩ l.demand })
  | roll (h : s.mayRoll = true) : Decision s .roll (startTake s)
  | cut (hrig : s.cg.rig = .rolling) : Decision s .cut (enterDraining s)
  | enable (eye action : Byte) (e : Eye) : Decision s (.port eye action) (enablePort e s)
  | disable (eye action : Byte) (e : Eye) : Decision s (.port eye action) (disablePort e s)
  | stageReset : Decision s .stageReset (s.mapLts fun l => { l with staging := emptyStaging })
  | stageWrite (offset : BitVec 16) (data : List Byte) (h : offset.toNat + data.length ≤ Config.stagingBytes) :
      Decision s (.stageWrite offset data)
        (s.mapLts fun l => { l with staging := writeBytes l.staging offset.toNat data })
  | commit (slot : Byte) (copy : LensImage) (hslot : slot.toNat < 8) (hcopy : readImage s.lts.staging = some copy)
      (hclash : s.lts.clashes slot.toNat copy.table.identity = false) :
      Decision s (.commit slot) (changeSlot slot.toNat (.commit copy) s)
  | discard (slot : Byte) (hslot : slot.toNat < 8) : Decision s (.discard slot) (changeSlot slot.toNat .discard s)
  | save (slot : Byte) (hslot : slot.toNat < 8) (hstore : s.lts.store = .ready) :
      Decision s (.save slot) (s.mapLts (LensStore.beginSave slot.toNat s.timebase))
  | clear (mask : BitVec 16) :
      Decision s (.clearNotices mask) (s.mapRcp (RigPort.clearNamed (mask.setWidth 8)))

/-- A request's decision does one of these and stores its response; RESET stores DONE, which its reset empties at once. -/
theorem decideRequest_cases (r : Request) (s : State) :
    (∃ t kind code body, Decision s r t ∧ decideRequest r s = respond kind code body t) ∨
      (r = .reset ∧ decideRequest r s = enforceReset .request (answer 0x71 .done s)) := by
  cases r with
  | reset => exact .inr ⟨rfl, rfl⟩
  | profile p =>
    simp only [decideRequest, decideProfile]
    split
    · exact .inl ⟨_, _, _, _, .unchanged _, rfl⟩
    · next hrig =>
      split
      · exact .inl ⟨_, _, _, _, .unchanged _, rfl⟩
      · next f hf => exact .inl ⟨_, _, _, _, .profile p f (by simpa using hrig) hf, rfl⟩
  | source code =>
    simp only [decideRequest, decideSource]
    split
    · exact .inl ⟨_, _, _, _, .unchanged _, rfl⟩
    · split
      · exact .inl ⟨_, _, _, _, .unchanged _, rfl⟩
      · next hrig =>
        split
        · exact .inl ⟨_, _, _, _, .unchanged _, rfl⟩
        · split
          · exact .inl ⟨_, _, _, _, .toRef code (by simpa using hrig), rfl⟩
          · exact .inl ⟨_, _, _, _, .toFree code (by simpa using hrig), rfl⟩
  | rate target marks =>
    simp only [decideRequest, decideRate]
    split
    · exact .inl ⟨_, _, _, _, .unchanged _, rfl⟩
    · next h => exact .inl ⟨_, _, _, _, .rate target marks h, rfl⟩
  | shutter mode value =>
    simp only [decideRequest, decideShutter]
    split
    · exact .inl ⟨_, _, _, _, .unchanged _, rfl⟩
    · next m _ => exact .inl ⟨_, _, _, _, .shutter mode value m, rfl⟩
  | demand axes focus iris zoom =>
    simp only [decideRequest, decideDemand]
    split
    · exact .inl ⟨_, _, _, _, .unchanged _, rfl⟩
    · exact .inl ⟨_, _, _, _, .demand axes focus iris zoom, rfl⟩
  | roll =>
    simp only [decideRequest, decideRoll]
    split
    · next h => exact .inl ⟨_, _, _, _, .roll h, rfl⟩
    · exact .inl ⟨_, _, _, _, .unchanged _, rfl⟩
  | cut =>
    simp only [decideRequest, decideCut]
    split
    · next h => exact .inl ⟨_, _, _, _, .cut h, rfl⟩
    · exact .inl ⟨_, _, _, _, .unchanged _, rfl⟩
  | port eye action =>
    simp only [decideRequest, decidePort]
    split
    · next e _ _ => exact .inl ⟨_, _, _, _, .enable eye action e, rfl⟩
    · next e _ _ => exact .inl ⟨_, _, _, _, .disable eye action e, rfl⟩
    · exact .inl ⟨_, _, _, _, .unchanged _, rfl⟩
  | stageReset => exact .inl ⟨_, _, _, _, .stageReset, rfl⟩
  | stageWrite offset data =>
    simp only [decideRequest, decideStageWrite]
    split
    · exact .inl ⟨_, _, _, _, .unchanged _, rfl⟩
    · next h => exact .inl ⟨_, _, _, _, .stageWrite offset data (Nat.le_of_not_lt h), rfl⟩
  | commit slot =>
    simp only [decideRequest, decideCommit]
    split
    · exact .inl ⟨_, _, _, _, .unchanged _, rfl⟩
    · next hslot =>
      split
      · exact .inl ⟨_, _, _, _, .unchanged _, rfl⟩
      · split
        · exact .inl ⟨_, _, _, _, .unchanged _, rfl⟩
        · next copy hcopy =>
          split
          · exact .inl ⟨_, _, _, _, .unchanged _, rfl⟩
          · next hclash =>
            exact .inl ⟨_, _, _, _, .commit slot copy (Nat.lt_of_not_le hslot) hcopy (by simpa using hclash), rfl⟩
  | discard slot =>
    simp only [decideRequest, decideDiscard]
    split
    · exact .inl ⟨_, _, _, _, .unchanged _, rfl⟩
    · next hslot =>
      split
      · exact .inl ⟨_, _, _, _, .unchanged _, rfl⟩
      · exact .inl ⟨_, _, _, _, .discard slot (Nat.lt_of_not_le hslot), rfl⟩
  | save slot =>
    simp only [decideRequest, decideSave]
    split
    · exact .inl ⟨_, _, _, _, .unchanged _, rfl⟩
    · next hslot =>
      split
      · exact .inl ⟨_, _, _, _, .unchanged _, rfl⟩
      · next hstore => exact .inl ⟨_, _, _, _, .save slot (Nat.lt_of_not_le hslot) (by simpa using hstore), rfl⟩
  | readSlot slot offset length =>
    simp only [decideRequest, decideReadSlot]
    split
    · exact .inl ⟨_, _, _, _, .unchanged _, rfl⟩
    · exact .inl ⟨_, _, _, _, .unchanged _, rfl⟩
  | query => exact .inl ⟨_, _, _, _, .unchanged _, rfl⟩
  | clearNotices mask =>
    simp only [decideRequest, decideClearNotices]
    split
    · exact .inl ⟨_, _, _, _, .unchanged _, rfl⟩
    · exact .inl ⟨_, _, _, _, .clear mask, rfl⟩

/-- An invariant that the rig control port has no part in is kept by a judged transaction, if every decision and every reset
keep it. -/
theorem judged_keeps_of_decisions {P : State → Prop} (port : ∀ (s : State) (r : RigPort), P s → P { s with rcp := r })
    (decisions : ∀ s t r, P s → Decision s r t → P t) (resets : ∀ k s, P s → P (enforceReset k s))
    (n : Nat) (v : Verdict) {s : State} (hs : P s) : P (rcpEnd n (actOn v) s) := by
  refine judged_keeps n v (fun l => port s _ hs) (fun l kind code => port s _ hs) fun l r => ?_
  have hl : P (s.rcpShut l) := port s _ hs
  obtain ⟨t, kind, code, body, hd, h⟩ | ⟨-, h⟩ := decideRequest_cases r (s.rcpShut l)
  · rw [h]
    exact port t _ (decisions _ _ _ hl hd)
  · rw [h]
    exact resets _ _ (port _ _ hl)

@[simp] theorem decideRequest_pending (r : Request) (s : State) : (decideRequest r s).pending = s.pending := by
  obtain ⟨t, kind, code, body, hd, h⟩ | ⟨-, h⟩ := decideRequest_cases r s
  · rw [h]
    cases hd <;> simp
  · rw [h]
    rfl

@[simp] theorem enforceReset_pending (k : ResetKind) (s : State) : (enforceReset k s).pending = s.pending := by
  cases k <;> rfl

@[simp] theorem endReset_pending (k : ResetKind) (s : State) : (endReset k s).pending = s.pending := by
  simp only [endReset, releasePart]; (repeat' split) <;> simp

/-! ## The stages of a rolling mark -/

/-- The Cadence Generator numbers a rolling mark issued at an instant (R4, R5). -/
def Cadence.numberMark (m now : Time) (c : Cadence) : Cadence :=
  { c.passMark m (some c.markCounter) with
    markCounter := c.markCounter + 1, lastMark := some (c.markCounter, now) }

/-- A rolling mark up to the eyes that join: numbered, the window aged, and the served eyes RUNNING. -/
def rollMarkJoined (m : Time) (plan : Plan) (s : State) : State :=
  joinEye plan .right (joinEye plan .left (ageWindow (s.mapCg (Cadence.numberMark m s.timebase))))

/-- A rolling mark up to its slot in the window. -/
def rollMarkOpened (m : Time) (plan : Plan) (s : State) : State :=
  openWindow ((rollMarkJoined m plan s).openSlot plan s.cg.markCounter s.cg.inHoldover s.cg.lock.stepOwed)
    (rollMarkJoined m plan s)

/-- A rolling mark up to its pulses. -/
def rollMarkLaid (m : Time) (plan : Plan) (s : State) : State :=
  layPulse plan .right s.cg.markCounter (layPulse plan .left s.cg.markCounter (rollMarkOpened m plan s))

/-- A rolling mark ends with the start of the next plan. -/
theorem rollMark_eq (m : Time) (plan : Plan) (s : State) :
    rollMark m plan s = planStart ((rollMarkLaid m plan s).mapTp fun t => { t with prepared := none }) := rfl

/-! ## The stages of a choice, of an invalid CAPS and of a departure -/

/-- The outcome of a choice is the pair in force (R56, Equal). -/
def State.equalChoice (s : State) (a : Agreement) : Bool :=
  match s.ae.agreement with
  | some b => sameChoice a b
  | none => false

theorem placeChoice_some (cause : Option Eye) (a : Agreement) (s : State) :
    placeChoice cause (some a) s =
      if s.equalChoice a then placeEqual cause a .right (placeEqual cause a .left (setAgreement (some a) s))
      else proposeEye .right a (proposeEye .left a (setAgreement (some a) s)) := rfl

/-- An eye after an invalid CAPS: out of the take if it was in it, LISTENING with BAD_CAPS and without CAPS (R50). -/
def invalidOut (e : Eye) (s : State) : State :=
  holdCaps e none (clearExclusion (waitEye e .listening .badCaps
    (if (s.eye e).state.inTake then departEye e s else s)))

theorem invalidOut_cg (e : Eye) (s : State) : (invalidOut e s).cg = s.cg := by
  unfold invalidOut
  split <;> simp

theorem invalidCaps_eq (e : Eye) (s : State) :
    invalidCaps e s =
      if s.cg.rig = .setup then partnerWaits e.other (setAgreement none (invalidOut e s))
      else if (s.eye e).state.inTake then leaveTake e (invalidOut e s)
      else invalidOut e s := by
  rw [← invalidOut_cg e s]
  rfl

/-- An eye that leaves an attached state: its port in the partial reset, DETACHED and without CAPS (R29). -/
def detachedOut (e : Eye) (s : State) : State :=
  holdCaps e none (setEyeState e .detached
    (if (s.eye e).state.inTake then departEye e (s.mapEye e EyePort.partialReset)
      else clearPrevious e (s.mapEye e EyePort.partialReset)))

theorem leaveAttached_eq (e : Eye) (s : State) :
    leaveAttached e s =
      if (s.eye e).state.inTake then testLoss e (agreementAfterLeave e (raise .eyeChange (detachedOut e s)))
      else agreementAfterLeave e (raise .eyeChange (detachedOut e s)) := rfl

/-- An eye before its rejoin test: its CAPS held, and out of the take if it was in it (R61). -/
def rejoinOut (e : Eye) (c : Caps) (s : State) : State :=
  if (s.eye e).state.inTake then
    leaveTake e (setEyeState e .held (departEye e (holdCaps e (some c) (clearExclusion s))))
  else holdCaps e (some c) (clearExclusion s)

theorem validCapsTake_eq (e : Eye) (c : Caps) (s : State) : validCapsTake e c s = rejoinTest e c (rejoinOut e c s) := rfl

/-- No move takes or adds a command. -/
theorem Move.pending {c : Instr} {s t : State} (h : Move s c t) : t.pending = s.pending := by
  cases h with
  | judged _ n v h =>
    exact judged_keeps (P := fun t => t.pending = s.pending) n v (by simp) (by simp) (by simp)
  | _ => simp

/-- Settles O3: a command completes with one of the moves, and no move touches the queue. -/
theorem everyCommandCompletes : Obligations.EveryCommandCompletes := fun c s =>
  let ⟨t, ht, hm⟩ := exec_move c s
  ⟨t, ht, hm.pending⟩

end Sys2Proof.Machine
end

section
/-! PROOFS. The pair queue stays sound (O57; R153, R157): only an offered record, the two edges of P_SEL# and a reset change
the pair queue, and each keeps its form. -/

namespace Sys2Proof.Machine

/-- The form of the pair queue is a matter of the pair queue alone. -/
theorem queueSound_congr {s t : State} (h : t.pq = s.pq) : t.queueSound ↔ s.queueSound := by
  simp [State.queueSound, h]

theorem queueSound_of_pq {s t : State} (hs : s.queueSound) (h : t.pq = s.pq) : t.queueSound := (queueSound_congr h).2 hs

/-- A record is accepted with the check of its bytes (R153). -/
theorem acceptRecord_check (owed : Bool) (r : PairRecord) :
    (acceptRecord owed r).check = recordCheck (acceptRecord owed r).record.bytes := by
  simp only [acceptRecord]

/-- An accepted record stands behind the head, with the check of its bytes. -/
theorem offer_queueSound (r : PairRecord) {s : State} (hs : s.queueSound) : (offer r s).queueSound := by
  obtain ⟨hlen, hcheck, hhead, hread⟩ := hs
  unfold offer
  split
  · next hlt =>
    simp only [Config.queueDepth] at hlt
    refine ⟨by simp; omega, ?_, ?_, hread⟩
    · simp only [State.mapPq_pq, List.mem_append, List.mem_singleton]
      rintro q (hq | rfl)
      · exact hcheck q hq
      · exact acceptRecord_check _ _
    · intro q n hq
      simp [List.head?_append, hhead q n hq]
  · exact ⟨hlen, hcheck, hhead, hread⟩

theorem retireSlot_queueSound (p : PairSlot) {s : State} (hs : s.queueSound) : (retireSlot p s).queueSound :=
  offer_queueSound _ (queueSound_of_pq hs (by simp))

theorem retireFrom_queueSound (l : List PairSlot) {s : State} (hs : s.queueSound) : (retireFrom l s).queueSound := by
  induction l generalizing s with
  | nil => exact hs
  | cons slot rest ih =>
    rw [retireFrom]
    split
    · exact ih (retireSlot_queueSound slot hs)
    · exact hs

theorem retire_queueSound {s : State} (hs : s.queueSound) : (retire s).queueSound := retireFrom_queueSound _ hs

theorem ageWindow_queueSound {s : State} (hs : s.queueSound) : (ageWindow s).queueSound :=
  retire_queueSound (queueSound_of_pq hs (by simp))

theorem matchFrame_queueSound (e : Eye) (f : RawFrame) {s : State} (hs : s.queueSound) :
    (matchFrame e f s).queueSound := by
  unfold matchFrame
  split
  · exact hs
  · exact retire_queueSound (queueSound_of_pq hs (by simp))

theorem departEye_queueSound (e : Eye) {s : State} (hs : s.queueSound) : (departEye e s).queueSound :=
  retire_queueSound (queueSound_of_pq hs (by simp))

theorem validCapsTake_queueSound (e : Eye) (c : Caps) {s : State} (hs : s.queueSound) :
    (validCapsTake e c s).queueSound := by
  refine queueSound_of_pq ?_ (rejoinTest_frame _ _ _).2.2.2.2.2.1
  split
  · exact queueSound_of_pq (departEye_queueSound e (s := holdCaps e (some c) (clearExclusion s))
      (queueSound_of_pq hs (by simp))) (by simp)
  · exact queueSound_of_pq hs (by simp)

theorem invalidCaps_queueSound (e : Eye) {s : State} (hs : s.queueSound) : (invalidCaps e s).queueSound := by
  have hd : (if (s.eye e).state.inTake then departEye e s else s).queueSound := by
    split
    · exact departEye_queueSound e hs
    · exact hs
  refine queueSound_of_pq hd ?_
  simp only [invalidCaps]
  (repeat' split) <;> simp

theorem takeCaps_queueSound (e : Eye) (c : RawCaps) {s : State} (hs : s.queueSound) : (takeCaps e c s).queueSound := by
  unfold takeCaps
  split
  · exact invalidCaps_queueSound e hs
  · split
    · exact queueSound_of_pq hs (by simp)
    · exact validCapsTake_queueSound e _ hs

theorem leaveAttached_queueSound (e : Eye) {s : State} (hs : s.queueSound) : (leaveAttached e s).queueSound := by
  have hp : (s.mapEye e EyePort.partialReset).queueSound := queueSound_of_pq hs (by simp)
  have hd : (if (s.eye e).state.inTake then departEye e (s.mapEye e EyePort.partialReset)
      else clearPrevious e (s.mapEye e EyePort.partialReset)).queueSound := by
    split
    · exact departEye_queueSound e hp
    · exact queueSound_of_pq hp (by simp)
  refine queueSound_of_pq hd ?_
  simp only [leaveAttached]
  split <;> simp

theorem disablePort_queueSound (e : Eye) {s : State} (hs : s.queueSound) : (disablePort e s).queueSound := by
  simp only [disablePort]
  (repeat' split)
  · exact hs
  · exact leaveAttached_queueSound e hs
  · exact hs

theorem rollMark_queueSound (m : Time) (plan : Plan) {s : State} (hs : s.queueSound) :
    (rollMark m plan s).queueSound := by
  have aged : (ageWindow (s.mapCg (Cadence.numberMark m s.timebase))).queueSound := ageWindow_queueSound hs
  have joined : (rollMarkJoined m plan s).queueSound := queueSound_of_pq aged (by simp [rollMarkJoined])
  have opened : (rollMarkOpened m plan s).queueSound := retire_queueSound (queueSound_of_pq joined rfl)
  exact queueSound_of_pq opened (by simp [rollMark_eq, rollMarkLaid])

theorem rollingMarkEvent_queueSound (m : Time) {s : State} (hs : s.queueSound) :
    (rollingMarkEvent m s).queueSound := by
  have hc : (completePlan (waitUntil m s)).queueSound := queueSound_of_pq hs (by simp)
  simp only [rollingMarkEvent]
  split
  · exact hc
  · exact rollMark_queueSound m _ hc

theorem drainMarkEvent_queueSound (m : Time) {s : State} (hs : s.queueSound) : (drainMarkEvent m s).queueSound := by
  have aged : (ageWindow ((waitUntil m s).mapCg (Cadence.drainMark m (waitUntil m s).timebase))).queueSound :=
    ageWindow_queueSound hs
  simp only [drainMarkEvent]
  split
  · exact queueSound_of_pq aged (by simp)
  · exact aged

/-- The falling edge of P_SEL# latches the head, of which SDO has carried `early` bits (R157). -/
theorem pairStart_queueSound (early : Nat) {s : State} (hs : s.queueSound) : (pairStart early s).queueSound := by
  obtain ⟨hlen, hcheck, -, -⟩ := id hs
  unfold pairStart
  split
  · exact hs
  · by_cases hh : s.isHeld = true
    · simp [State.queueSound, hh, hlen]
      exact hcheck
    · simp only [State.queueSound, State.mapPq_pq, hh, Bool.false_eq_true, if_false]
      refine ⟨hlen, hcheck, fun r n h => (PairRead.mk.inj (Option.some.inj h)).1, fun r h => ?_⟩
      obtain rfl := Option.some.inj h
      simp

/-- The end of a read removes at most the head (R158). -/
theorem pairEnd_queueSound (n : Nat) {s : State} (hs : s.queueSound) : (pairEnd n s).queueSound := by
  obtain ⟨hlen, hcheck, -, -⟩ := pairStart_queueSound 0 hs
  have hfin : ∀ q : PairQueue, q.queue.length ≤ 64 → (∀ r ∈ q.queue, r.check = recordCheck r.record.bytes) →
      (q.finish n).queue.length ≤ 64 ∧ (∀ r ∈ (q.finish n).queue, r.check = recordCheck r.record.bytes) ∧
        (q.finish n).read = none := by
    intro q hl hc
    unfold PairQueue.finish
    split
    · next h => exact ⟨hl, hc, h⟩
    · refine ⟨?_, ?_, rfl⟩ <;> simp only [afterRead] <;> split
      · simp; omega
      · exact hl
      · exact fun r hr => hc r (List.mem_of_mem_tail hr)
      · exact hc
  obtain ⟨h1, h2, h3⟩ := hfin _ hlen hcheck
  exact ⟨h1, h2, by simp [pairEnd, h3], by simp [pairEnd, h3]⟩

theorem holdInReset_queueSound (s : State) : (holdInReset s).queueSound := by
  simp [State.queueSound, PairQueue.atReset]

theorem enforceReset_queueSound (k : ResetKind) (s : State) : (enforceReset k s).queueSound := holdInReset_queueSound _

theorem decision_queueSound {s t : State} {r : Request} (hs : s.queueSound) (h : Decision s r t) : t.queueSound := by
  cases h with
  | disable eye action e => exact disablePort_queueSound e hs
  | _ => exact queueSound_of_pq hs (by simp)

theorem Move.queueSound {c : Instr} {s t : State} (hs : s.queueSound) (h : Move s c t) : t.queueSound := by
  cases h with
  | judged _ n v =>
    exact judged_keeps_of_decisions (fun _ _ h => h) (fun _ _ _ => decision_queueSound)
      (fun k s _ => enforceReset_queueSound k s) n v hs
  | capsTaken e raw => exact takeCaps_queueSound e raw (queueSound_of_pq hs (by simp))
  | frameTaken e f => exact matchFrame_queueSound e f (queueSound_of_pq hs (by simp))
  | detached e n => exact leaveAttached_queueSound e (queueSound_of_pq hs (by simp))
  | rollingMark m => exact rollingMarkEvent_queueSound m hs
  | drainMark m => exact drainMarkEvent_queueSound m hs
  | pairStart early => exact pairStart_queueSound early hs
  | pairEnd n => exact pairEnd_queueSound n hs
  | reset _ k => exact enforceReset_queueSound k s
  | release k =>
    refine queueSound_of_pq hs ?_
    simp only [endReset, releasePart]
    (repeat' split) <;> simp
  | _ => exact queueSound_of_pq hs (by simp)

/-- Settles O57: every move keeps the pair queue sound, and a tick does not touch it. -/
theorem pairQueueStaysSound : Obligations.PairQueueStaysSound := fun _ _ hs h =>
  step_keeps (fun _ _ h => h) (fun _ h => h) (fun _ _ _ => Move.queueSound) hs h

end Sys2Proof.Machine
end

section
/-! PROOFS. The port of an eye after each operation: what the shared operations leave of it, and what the operations on eye
states and directive buffers make of it, so that no later proof unfolds them. -/

namespace Sys2Proof.Machine

/-! ## Operations that change no port -/

@[simp] theorem raise_eye (n : Notice) (s : State) (e : Eye) : (raise n s).eye e = s.eye e := by
  simp [State.eye]

@[simp] theorem respond_eye (k : Byte) (c : ResponseCode) (b : List Byte) (s : State) (e : Eye) : (respond k c b s).eye e = s.eye e := by
  simp [State.eye]

@[simp] theorem answer_eye (k : Byte) (c : ResponseCode) (s : State) (e : Eye) : (answer k c s).eye e = s.eye e := by
  simp [State.eye]

@[simp] theorem clearPrevious_eye (e' : Eye) (s : State) (e : Eye) : (clearPrevious e' s).eye e = s.eye e := by
  simp [State.eye]

@[simp] theorem clearPreviousIf_eye (c : Bool) (e' : Eye) (s : State) (e : Eye) : (clearPreviousIf c e' s).eye e = s.eye e := by
  simp [State.eye]

@[simp] theorem evalBinding_eye (e' : Eye) (s : State) (e : Eye) : (evalBinding e' s).eye e = s.eye e := by
  simp [State.eye]

@[simp] theorem evalBindings_eye (s : State) (e : Eye) : (evalBindings s).eye e = s.eye e := by
  simp [State.eye]

@[simp] theorem afterApply_eye (f : Nat → Bool) (b : PerEye (Option Nat)) (s : State) (e : Eye) : (afterApply f b s).eye e = s.eye e := by
  simp [State.eye]

@[simp] theorem applyOp_eye (k : Nat) (p : PendingOp) (s : State) (e : Eye) : (applyOp k p s).eye e = s.eye e := by
  simp [State.eye]

@[simp] theorem applyPendingOps_eye (s : State) (e : Eye) : (applyPendingOps s).eye e = s.eye e := by
  simp [State.eye]

@[simp] theorem changeSlot_eye (k : Nat) (p : PendingOp) (s : State) (e : Eye) : (changeSlot k p s).eye e = s.eye e := by
  simp [State.eye]

@[simp] theorem finishLoad_eye (s : State) (e : Eye) : (finishLoad s).eye e = s.eye e := by
  simp [State.eye]

@[simp] theorem offer_eye (r : PairRecord) (s : State) (e : Eye) : (offer r s).eye e = s.eye e := by
  simp [State.eye]

@[simp] theorem forgetMark_eye (m : MarkNumber) (e' : Eye) (s : State) (e : Eye) : (forgetMark m e' s).eye e = s.eye e := by
  simp [State.eye]

@[simp] theorem forgetTimedOut_eye (d : Nat) (l : List PairSlot) (s : State) (e : Eye) : (forgetTimedOut d l s).eye e = s.eye e := by
  simp [State.eye]

@[simp] theorem mapSlotOf_eye (m : MarkNumber) (f : PairSlot → PairSlot) (s : State) (e : Eye) : (mapSlotOf m f s).eye e = s.eye e := by
  simp [State.eye]

@[simp] theorem setRefStep_eye (m : MarkNumber) (s : State) (e : Eye) : (setRefStep m s).eye e = s.eye e := by
  simp [State.eye]

@[simp] theorem planStart_eye (s : State) (e : Eye) : (planStart s).eye e = s.eye e := by
  simp [State.eye]

@[simp] theorem discardPlan_eye (s : State) (e : Eye) : (discardPlan s).eye e = s.eye e := by
  simp [State.eye]

@[simp] theorem setAgreement_eye (a : Option Agreement) (s : State) (e : Eye) : (setAgreement a s).eye e = s.eye e := by
  simp [State.eye]

@[simp] theorem clearExclusion_eye (s : State) (e : Eye) : (clearExclusion s).eye e = s.eye e := by
  simp [State.eye]

@[simp] theorem forgetReadout_eye (e' : Eye) (s : State) (e : Eye) : (forgetReadout e' s).eye e = s.eye e := by
  simp [State.eye]

@[simp] theorem excludePair_eye (a : Agreement) (s : State) (e : Eye) : (excludePair a s).eye e = s.eye e := by
  simp [State.eye]

@[simp] theorem startTake_eye (s : State) (e : Eye) : (startTake s).eye e = s.eye e := by
  simp [State.eye]

@[simp] theorem completeLoad_eye (s : State) (e : Eye) : (completeLoad s).eye e = s.eye e := by
  simp [State.eye]

@[simp] theorem pairStart_eye (n : Nat) (s : State) (e : Eye) : (pairStart n s).eye e = s.eye e := by
  simp [State.eye]

@[simp] theorem pairEnd_eye (n : Nat) (s : State) (e : Eye) : (pairEnd n s).eye e = s.eye e := by
  simp [State.eye]

@[simp] theorem refEdge_eye (s : State) (e : Eye) : (refEdge s).eye e = s.eye e := by
  simp [State.eye]

@[simp] theorem attributeEdge_eye (w : RefWindow) (p : Nat) (s : State) (e : Eye) : (attributeEdge w p s).eye e = s.eye e := by
  simp [State.eye]

/-! ## Operations on one port -/

theorem State.mapEye_eye (e e' : Eye) (g : EyePort → EyePort) (s : State) :
    (s.mapEye e g).eye e' = if e' = e then g (s.eye e) else s.eye e' := by
  cases e <;> cases e' <;> rfl

theorem Eye_ne_iff {e e' : Eye} : e' ≠ e ↔ e' = e.other := by
  cases e <;> cases e' <;> decide

@[simp] theorem Eye_other_ne_self (e : Eye) : (e.other = e) = False := by
  cases e <;> simp [Eye.other]

theorem writeDirective_eye (e e' : Eye) (d : Directive) (s : State) :
    (writeDirective e d s).eye e' = if e' = e then (s.eye e).writeDirective d else s.eye e' :=
  State.mapEye_eye e e' _ s

theorem countLost_eye (e e' : Eye) (s : State) :
    (countLost e s).eye e' = if e' = e then (s.eye e).countLost else s.eye e' :=
  State.mapEye_eye e e' _ s

theorem emptySlot_eye (e e' : Eye) (s : State) :
    (emptySlot e s).eye e' = if e' = e then { s.eye e with slot := none } else s.eye e' :=
  State.mapEye_eye e e' _ s

theorem setEyeState_eye (e e' : Eye) (st : EyeState) (s : State) :
    (setEyeState e st s).eye e' = if e' = e then (s.eye e).enterState st else s.eye e' := by
  unfold setEyeState
  split <;> simp [State.mapEye_eye]

/-- In a state that is neither AGREED nor RUNNING no pulse of the eye is left (R45, R88). -/
theorem setEyeState_tp (e : Eye) (st : EyeState) (s : State) :
    (setEyeState e st s).tp = if st.inTake then s.tp else { s.tp with pulses := s.tp.pulses.set e [] } := by
  unfold setEyeState
  split <;> simp [*]

theorem waitEye_eye (e e' : Eye) (st : EyeState) (r : WaitReason) (s : State) :
    (waitEye e st r s).eye e' = if e' = e then ((s.eye e).enterState st).writeDirective (.wait r) else s.eye e' := by
  simp only [waitEye, writeDirective_eye, State.mapAe_eye, setEyeState_eye]
  split <;> simp

theorem waitEye_tp (e : Eye) (st : EyeState) (r : WaitReason) (s : State) :
    (waitEye e st r s).tp = if st.inTake then s.tp else { s.tp with pulses := s.tp.pulses.set e [] } := by
  simp [waitEye, setEyeState_tp]

theorem waitEye_ae (e : Eye) (st : EyeState) (r : WaitReason) (s : State) :
    (waitEye e st r s).ae = { s.ae with reason := s.ae.reason.set e r } := by
  simp [waitEye]

theorem proposeEye_eye (e e' : Eye) (a : Agreement) (s : State) :
    (proposeEye e a s).eye e' =
      if e' = e then ((s.eye e).enterState .proposed).writeDirective (agreeDirective a e) else s.eye e' := by
  simp only [proposeEye, writeDirective_eye, setEyeState_eye]
  split <;> simp

theorem proposeEye_tp (e : Eye) (a : Agreement) (s : State) :
    (proposeEye e a s).tp = { s.tp with pulses := s.tp.pulses.set e [] } := by
  simp [proposeEye, setEyeState_tp, EyeState.inTake]

theorem holdCaps_eye (e e' : Eye) (c : Option Caps) (s : State) :
    (holdCaps e c s).eye e' = if e' = e then { s.eye e with caps := c } else s.eye e' := by
  simp [holdCaps, State.mapEye_eye]

/-- A directive written again replaces the one before it. -/
@[simp] theorem EyePort.writeDirective_writeDirective (p : EyePort) (d d' : Directive) :
    (p.writeDirective d).writeDirective d' = p.writeDirective d' := by
  simp [EyePort.writeDirective, Function.comp_def]

@[simp] theorem EyePort.writeDirective_fields (p : EyePort) (d : Directive) :
    (p.writeDirective d).state = p.state ∧ (p.writeDirective d).enabled = p.enabled ∧ (p.writeDirective d).pres = p.pres ∧
    (p.writeDirective d).timer = p.timer ∧ (p.writeDirective d).selLow = p.selLow ∧
    (p.writeDirective d).buffer = some d ∧ (p.writeDirective d).fresh = true ∧ (p.writeDirective d).image = p.image ∧
    (p.writeDirective d).slot = p.slot ∧ (p.writeDirective d).lost = p.lost ∧
    (p.writeDirective d).takenFull = p.takenFull ∧ (p.writeDirective d).caps = p.caps ∧
    (p.writeDirective d).trig = p.trig ∧ (p.writeDirective d).sent = p.sent := by
  simp [EyePort.writeDirective]

@[simp] theorem EyePort.enterState_fields (p : EyePort) (st : EyeState) :
    (p.enterState st).state = st ∧ (p.enterState st).enabled = p.enabled ∧ (p.enterState st).pres = p.pres ∧
    (p.enterState st).timer = p.timer ∧ (p.enterState st).selLow = p.selLow ∧ (p.enterState st).txn = p.txn ∧
    (p.enterState st).buffer = p.buffer ∧ (p.enterState st).fresh = p.fresh ∧ (p.enterState st).image = p.image ∧
    (p.enterState st).slot = p.slot ∧ (p.enterState st).lost = p.lost ∧
    (p.enterState st).takenFull = p.takenFull ∧ (p.enterState st).caps = p.caps ∧
    (p.enterState st).trig = (if st.inTake then p.trig else none) ∧ (p.enterState st).sent = p.sent := by
  simp [EyePort.enterState]

@[simp] theorem EyeState.inTake_values :
    EyeState.inTake .detached = false ∧ EyeState.inTake .settling = false ∧ EyeState.inTake .listening = false ∧
    EyeState.inTake .held = false ∧ EyeState.inTake .proposed = false ∧ EyeState.inTake .agreed = true ∧
    EyeState.inTake .running = true := by
  decide

@[simp] theorem EyeState.attached_values :
    EyeState.attached .detached = false ∧ EyeState.attached .settling = false ∧ EyeState.attached .listening = true ∧
    EyeState.attached .held = true ∧ EyeState.attached .proposed = true ∧ EyeState.attached .agreed = true ∧
    EyeState.attached .running = true := by
  decide

/-- An eye of the take is attached. -/
theorem EyeState.attached_of_inTake {st : EyeState} (h : st.inTake = true) : st.attached = true := by
  cases st <;> simp_all

/-! ## The two ports at once -/

@[simp] theorem advance_eye (n : Nat) (s : State) (e : Eye) : (advance n s).eye e = (s.eye e).advance n := by
  cases e <;> rfl

@[simp] theorem waitUntil_eye (m : Time) (s : State) (e : Eye) :
    (waitUntil m s).eye e = (s.eye e).advance (ticksUntil s.timebase m) := by
  simp [waitUntil]

@[simp] theorem tick_eye (s : State) (e : Eye) : (tick s).eye e = (s.eye e).advance 1 := by
  simp [tick]

@[simp] theorem takeLost_eye (s : State) (e : Eye) : (takeLost s).eye e = (s.eye e).takeLost := by
  cases e <;> rfl

@[simp] theorem EyePort.advance_fields (n : Nat) (p : EyePort) :
    (p.advance n).enabled = p.enabled ∧ (p.advance n).pres = p.pres ∧ (p.advance n).selLow = p.selLow ∧
    (p.advance n).txn = p.txn ∧ (p.advance n).buffer = p.buffer ∧ (p.advance n).fresh = p.fresh ∧
    (p.advance n).image = p.image ∧ (p.advance n).slot = p.slot ∧ (p.advance n).caps = p.caps ∧
    (p.advance n).sent = p.sent := by
  simp [EyePort.advance]

@[simp] theorem EyePort.takeLost_fields (p : EyePort) :
    p.takeLost.state = p.state ∧ p.takeLost.enabled = p.enabled ∧ p.takeLost.pres = p.pres ∧
    p.takeLost.timer = p.timer ∧ p.takeLost.selLow = p.selLow ∧ p.takeLost.txn = p.txn ∧ p.takeLost.buffer = p.buffer ∧
    p.takeLost.fresh = p.fresh ∧ p.takeLost.image = p.image ∧ p.takeLost.slot = p.slot ∧ p.takeLost.caps = p.caps ∧
    p.takeLost.trig = p.trig ∧ p.takeLost.sent = p.sent := by
  simp [EyePort.takeLost]

/-- Retirement leaves a port as it is or takes its lost-report count, once or more often. -/
theorem retireFrom_eye (l : List PairSlot) (s : State) (e : Eye) :
    (retireFrom l s).eye e =
      { s.eye e with lost := ((retireFrom l s).eye e).lost, takenFull := ((retireFrom l s).eye e).takenFull } := by
  induction l generalizing s with
  | nil => rfl
  | cons slot rest ih =>
    rw [retireFrom]
    split
    · rw [ih]
      simp [retireSlot, EyePort.takeLost]
    · rfl

end Sys2Proof.Machine
end

section
/-! PROOFS. Retirement and ageing, field by field (R132, R142, R147): which slots leave the window, which pulses and trigger
entries go with them, and what the ports keep. -/

namespace Sys2Proof.Machine

/-- A mark is none of the marks of some slots. -/
def freeOf (slots : List PairSlot) (m : MarkNumber) : Bool := slots.all fun slot => slot.mark != m

@[simp] theorem freeOf_nil (m : MarkNumber) : freeOf [] m = true := rfl

theorem freeOf_cons (slot : PairSlot) (l : List PairSlot) (m : MarkNumber) :
    freeOf (slot :: l) m = ((slot.mark != m) && freeOf l m) := rfl

theorem freeOf_iff (slots : List PairSlot) (m : MarkNumber) : freeOf slots m = true ↔ ∀ slot ∈ slots, slot.mark ≠ m := by
  simp [freeOf]

/-! ## Forgetting a mark -/

theorem forgetBoth_pulses (m : MarkNumber) (s : State) (e : Eye) :
    (forgetMark m .right (forgetMark m .left s)).tp.pulses.get e = (s.tp.pulses.get e).filter fun p => p.mark != m := by
  cases e <;> rfl

theorem forgetBoth_triggers (m : MarkNumber) (s : State) (e : Eye) :
    (forgetMark m .right (forgetMark m .left s)).pe.triggers.get e =
      (s.pe.triggers.get e).filter fun t => t.mark != m := by
  cases e <;> rfl

@[simp] theorem forgetMark_window (m : MarkNumber) (e : Eye) (s : State) : (forgetMark m e s).pe.window = s.pe.window := rfl

theorem forgetMark_tp (m : MarkNumber) (e : Eye) (s : State) :
    (forgetMark m e s).tp = { s.tp with pulses := (forgetMark m e s).tp.pulses } := rfl

/-! ## Retirement -/

@[simp] theorem EyePort.takeLost_takeLost (p : EyePort) : p.takeLost.takeLost = p.takeLost := by
  simp [EyePort.takeLost, Config.lostMax]

theorem retireSlot_pulses (slot : PairSlot) (s : State) (e : Eye) :
    (retireSlot slot s).tp.pulses.get e = (s.tp.pulses.get e).filter fun p => p.mark != slot.mark := by
  simp only [retireSlot, offer_frame, forgetBoth_pulses, takeLost_frame]

theorem retireSlot_triggers (slot : PairSlot) (s : State) (e : Eye) :
    (retireSlot slot s).pe.triggers.get e = (s.pe.triggers.get e).filter fun t => t.mark != slot.mark := by
  simp only [retireSlot, offer_frame, forgetBoth_triggers, takeLost_frame]

theorem retireSlot_eye (slot : PairSlot) (s : State) (e : Eye) : (retireSlot slot s).eye e = (s.eye e).takeLost := by
  simp [retireSlot]

theorem retireSlot_tp (slot : PairSlot) (s : State) :
    (retireSlot slot s).tp = { s.tp with pulses := (retireSlot slot s).tp.pulses } := by
  simp only [retireSlot, offer_frame]
  rfl

/-- Complete slots leave from the front, and no further (R147). -/
theorem retireFrom_window (l : List PairSlot) (s : State) :
    (retireFrom l s).pe.window = l.dropWhile PairSlot.complete := by
  induction l generalizing s with
  | nil => rfl
  | cons slot rest ih =>
    rw [retireFrom, List.dropWhile_cons]
    split
    · exact ih _
    · rfl

/-- A slot that leaves takes its scheduled pulses along. -/
theorem retireFrom_pulses (l : List PairSlot) (s : State) (e : Eye) :
    (retireFrom l s).tp.pulses.get e =
      (s.tp.pulses.get e).filter fun p => freeOf (l.takeWhile PairSlot.complete) p.mark := by
  induction l generalizing s with
  | nil => simp [retireFrom]
  | cons slot rest ih =>
    rw [retireFrom, List.takeWhile_cons]
    split
    · simp [ih, retireSlot_pulses, List.filter_filter, freeOf_cons, Bool.and_comm, bne_comm]
    · simp

/-- A slot that leaves takes its trigger entries along. -/
theorem retireFrom_triggers (l : List PairSlot) (s : State) (e : Eye) :
    (retireFrom l s).pe.triggers.get e =
      (s.pe.triggers.get e).filter fun t => freeOf (l.takeWhile PairSlot.complete) t.mark := by
  induction l generalizing s with
  | nil => simp [retireFrom]
  | cons slot rest ih =>
    rw [retireFrom, List.takeWhile_cons]
    split
    · simp [ih, retireSlot_triggers, List.filter_filter, freeOf_cons, Bool.and_comm, bne_comm]
    · simp

/-- The first record takes both lost-report counts (R150); with no record the ports are untouched. -/
theorem retireFrom_port (l : List PairSlot) (s : State) (e : Eye) :
    (retireFrom l s).eye e = if l.takeWhile PairSlot.complete = [] then s.eye e else (s.eye e).takeLost := by
  induction l generalizing s with
  | nil => rfl
  | cons slot rest ih =>
    rw [retireFrom, List.takeWhile_cons]
    split
    · rw [ih, retireSlot_eye]
      simp
    · rfl

theorem retireFrom_tp (l : List PairSlot) (s : State) :
    (retireFrom l s).tp = { s.tp with pulses := (retireFrom l s).tp.pulses } := by
  induction l generalizing s with
  | nil => rfl
  | cons slot rest ih =>
    rw [retireFrom]
    split
    · rw [ih, retireSlot_tp]
    · rfl

/-! ## Timeouts -/

theorem forgetTimedOut_pulses (d : Nat) (l : List PairSlot) (s : State) (e : Eye) :
    (forgetTimedOut d l s).tp.pulses.get e =
      (s.tp.pulses.get e).filter fun p => freeOf (l.filter (PairSlot.timedOut d)) p.mark := by
  induction l generalizing s with
  | nil => simp [forgetTimedOut]
  | cons slot rest ih =>
    rw [forgetTimedOut, ih, List.filter_cons]
    split
    · simp [forgetBoth_pulses, List.filter_filter, freeOf_cons, Bool.and_comm, bne_comm]
    · rfl

theorem forgetTimedOut_triggers (d : Nat) (l : List PairSlot) (s : State) (e : Eye) :
    (forgetTimedOut d l s).pe.triggers.get e =
      (s.pe.triggers.get e).filter fun t => freeOf (l.filter (PairSlot.timedOut d)) t.mark := by
  induction l generalizing s with
  | nil => simp [forgetTimedOut]
  | cons slot rest ih =>
    rw [forgetTimedOut, ih, List.filter_cons]
    split
    · simp [forgetBoth_triggers, List.filter_filter, freeOf_cons, Bool.and_comm, bne_comm]
    · rfl

theorem forgetTimedOut_tp (d : Nat) (l : List PairSlot) (s : State) :
    (forgetTimedOut d l s).tp = { s.tp with pulses := (forgetTimedOut d l s).tp.pulses } := by
  induction l generalizing s with
  | nil => rfl
  | cons slot rest ih =>
    rw [forgetTimedOut, ih]
    split <;> rfl

/-! ## Ageing -/

/-- The window after ageing and timeout, before retirement (R132 steps 1 and 2). -/
def agedWindow (depth : Nat) (l : List PairSlot) : List PairSlot :=
  l.map fun p => PairSlot.timeOut depth { p with age := p.age + 1 }

/-- The slots that time out at a mark event, as they were aged (R142). -/
def timingOut (depth : Nat) (l : List PairSlot) : List PairSlot :=
  (l.map fun p => { p with age := p.age + 1 }).filter (PairSlot.timedOut depth)

theorem ageWindow_window (s : State) :
    (ageWindow s).pe.window = (agedWindow s.ae.frame.depth s.pe.window).dropWhile PairSlot.complete := by
  simp [ageWindow, retire, retireFrom_window, agedWindow, Function.comp_def]

theorem ageWindow_pulses (s : State) (e : Eye) :
    (ageWindow s).tp.pulses.get e = (s.tp.pulses.get e).filter fun p =>
      freeOf (timingOut s.ae.frame.depth s.pe.window) p.mark &&
        freeOf ((agedWindow s.ae.frame.depth s.pe.window).takeWhile PairSlot.complete) p.mark := by
  simp [ageWindow, retire, retireFrom_pulses, forgetTimedOut_pulses, List.filter_filter, agedWindow, timingOut,
    Function.comp_def, Bool.and_comm]

theorem ageWindow_triggers (s : State) (e : Eye) :
    (ageWindow s).pe.triggers.get e = (s.pe.triggers.get e).filter fun t =>
      freeOf (timingOut s.ae.frame.depth s.pe.window) t.mark &&
        freeOf ((agedWindow s.ae.frame.depth s.pe.window).takeWhile PairSlot.complete) t.mark := by
  simp [ageWindow, retire, retireFrom_triggers, forgetTimedOut_triggers, List.filter_filter, agedWindow, timingOut,
    Function.comp_def, Bool.and_comm]

theorem ageWindow_port (s : State) (e : Eye) :
    (ageWindow s).eye e =
      if (agedWindow s.ae.frame.depth s.pe.window).takeWhile PairSlot.complete = [] then s.eye e
      else (s.eye e).takeLost := by
  simp [ageWindow, retire, retireFrom_port, agedWindow, Function.comp_def]

theorem ageWindow_tp (s : State) : (ageWindow s).tp = { s.tp with pulses := (ageWindow s).tp.pulses } := by
  simp only [ageWindow, retire]
  rw [retireFrom_tp, State.mapPe_tp, forgetTimedOut_tp]

end Sys2Proof.Machine
end

section
/-! PROOFS. Pulses and plans stay with the take and its eyes (O55; R45, R68, R69, R72, R73, R88). An eye leaves RUNNING and
AGREED only where no plan serves it any more, and then without pulses and with TRIG low; a plan begins in ROLLING alone. -/

namespace Sys2Proof.Machine

/-- The conditions are a matter of the rig state, the plans, the pulses, and each eye's state and TRIG. -/
theorem pulsesSound_congr {s t : State} (hs : s.pulsesSound) (hrig : t.cg.rig = s.cg.rig)
    (hplan : t.tp.inProgress = s.tp.inProgress) (hprep : t.tp.prepared = s.tp.prepared)
    (hpulses : t.tp.pulses = s.tp.pulses)
    (heye : ∀ e, (t.eye e).state = (s.eye e).state ∧ (t.eye e).trig = (s.eye e).trig) : t.pulsesSound := by
  simpa [State.pulsesSound, hrig, hplan, hprep, hpulses, heye] using hs

/-- An operation that leaves the cadence, the planner and the ports' states keeps the conditions. -/
theorem pulsesSound_of_eq {s t : State} (hs : s.pulsesSound) (hcg : t.cg.rig = s.cg.rig) (htp : t.tp = s.tp)
    (heye : ∀ e, (t.eye e).state = (s.eye e).state ∧ (t.eye e).trig = (s.eye e).trig) : t.pulsesSound :=
  pulsesSound_congr hs hcg (by rw [htp]) (by rw [htp]) (by rw [htp]) heye

/-- No plan serves an eye: every plan that includes it records its departure (R72). -/
def State.unserved (s : State) (e : Eye) : Prop :=
  (∀ p, s.tp.inProgress = some p → p.included.get e = true → p.departed.get e = true) ∧
    ∀ p, s.tp.prepared = some p → p.included.get e = true → p.departed.get e = true

theorem unserved_of_not_rolling {s : State} (hs : s.pulsesSound) (e : Eye) (h : s.cg.rig ≠ .rolling) : s.unserved e := by
  obtain ⟨hplan, -⟩ := hs
  simp [State.unserved, hplan h]

theorem unserved_of_not_inTake {s : State} (hs : s.pulsesSound) {e : Eye} (h : (s.eye e).state.inTake = false) :
    s.unserved e := by
  obtain ⟨-, hin, hprep, -⟩ := hs
  constructor
  · intro p hp hi
    by_contra hd
    simp [hin p hp e hi (by simpa using hd)] at h
  · intro p hp hi
    by_contra hd
    simp [hprep p hp e hi (by simpa using hd)] at h

theorem unserved_congr {s t : State} (e : Eye) (h : s.unserved e) (hplan : t.tp.inProgress = s.tp.inProgress)
    (hprep : t.tp.prepared = s.tp.prepared) : t.unserved e := by
  simpa [State.unserved, hplan, hprep] using h

/-- An eye changes its state: into AGREED or RUNNING, or out of them with no plan that serves it. -/
theorem setEyeState_pulsesSound (e : Eye) (st : EyeState) {s : State} (hs : s.pulsesSound)
    (h : st.inTake = true ∨ s.unserved e) : (setEyeState e st s).pulsesSound := by
  obtain ⟨hplan, hin, hprep, hout⟩ := hs
  have htp : (setEyeState e st s).tp.inProgress = s.tp.inProgress ∧ (setEyeState e st s).tp.prepared = s.tp.prepared := by
    rw [setEyeState_tp]
    split <;> simp
  refine ⟨by simpa [htp] using hplan, ?_, ?_, ?_⟩
  · intro p hp e' hi hd
    rw [htp.1] at hp
    rw [setEyeState_eye]
    split
    · next he =>
      subst he
      rcases h with h | h
      · exact h
      · simp [h.1 p hp hi] at hd
    · exact hin p hp e' hi hd
  · intro p hp e' hi hd
    rw [htp.2] at hp
    rw [setEyeState_eye]
    split
    · next he =>
      subst he
      rcases h with h | h
      · exact h
      · simp [h.2 p hp hi] at hd
    · exact hprep p hp e' hi hd
  · intro e' ho
    rw [setEyeState_eye] at ho ⊢
    rw [setEyeState_tp]
    by_cases he : e' = e
    · subst he
      simp only [if_true, EyePort.enterState_fields] at ho ⊢
      simp [ho]
    · simp only [he, if_false] at ho ⊢
      obtain ⟨h1, h2⟩ := hout e' ho
      refine ⟨h1, ?_⟩
      split
      · exact h2
      · simp [PerEye_get_set, he, h2]

theorem writeDirective_pulsesSound (e : Eye) (d : Directive) {s : State} (hs : s.pulsesSound) :
    (writeDirective e d s).pulsesSound := by
  refine pulsesSound_of_eq hs rfl rfl fun e' => ?_
  rw [writeDirective_eye]
  split <;> simp [*]

theorem waitEye_pulsesSound (e : Eye) (st : EyeState) (r : WaitReason) {s : State} (hs : s.pulsesSound)
    (h : s.unserved e) : (waitEye e st r s).pulsesSound :=
  writeDirective_pulsesSound e _
    (pulsesSound_of_eq (setEyeState_pulsesSound e st hs (.inr h)) rfl rfl fun _ => ⟨rfl, rfl⟩)

theorem proposeEye_pulsesSound (e : Eye) (a : Agreement) {s : State} (hs : s.pulsesSound) (h : s.unserved e) :
    (proposeEye e a s).pulsesSound :=
  writeDirective_pulsesSound e _ (setEyeState_pulsesSound e _ hs (.inr h))

/-- The plans are not a matter of one eye's state. -/
theorem waitEye_plans (e : Eye) (st : EyeState) (r : WaitReason) (s : State) :
    (waitEye e st r s).tp.inProgress = s.tp.inProgress ∧ (waitEye e st r s).tp.prepared = s.tp.prepared := by
  rw [waitEye_tp]
  split <;> simp

theorem proposeEye_plans (e : Eye) (a : Agreement) (s : State) :
    (proposeEye e a s).tp.inProgress = s.tp.inProgress ∧ (proposeEye e a s).tp.prepared = s.tp.prepared := by
  simp [proposeEye_tp]

/-! ## The choice, which runs outside ROLLING -/

theorem placeEqual_pulsesSound (cause : Option Eye) (a : Agreement) (e : Eye) {s : State} (hs : s.pulsesSound)
    (hrig : s.cg.rig ≠ .rolling) : (placeEqual cause a e s).pulsesSound := by
  unfold placeEqual
  (repeat' split)
  · exact writeDirective_pulsesSound e _ hs
  · exact hs
  · exact proposeEye_pulsesSound e a hs (unserved_of_not_rolling hs e hrig)

theorem raise_pulsesSound (n : Notice) {s : State} (hs : s.pulsesSound) : (raise n s).pulsesSound :=
  pulsesSound_of_eq hs rfl rfl fun _ => ⟨rfl, rfl⟩

theorem setAgreement_pulsesSound (a : Option Agreement) {s : State} (hs : s.pulsesSound) :
    (setAgreement a s).pulsesSound := hs

theorem placeChoice_pulsesSound (cause : Option Eye) (outcome : Option Agreement) {s : State} (hs : s.pulsesSound)
    (hrig : s.cg.rig ≠ .rolling) : (placeChoice cause outcome s).pulsesSound := by
  have wait : ∀ e r (x : State), x.pulsesSound → x.cg.rig ≠ .rolling → (waitEye e .held r x).pulsesSound :=
    fun e r x hx h => waitEye_pulsesSound e _ r hx (unserved_of_not_rolling hx e h)
  have propose : ∀ e a (x : State), x.pulsesSound → x.cg.rig ≠ .rolling → (proposeEye e a x).pulsesSound :=
    fun e a x hx h => proposeEye_pulsesSound e a hx (unserved_of_not_rolling hx e h)
  cases outcome with
  | none => exact raise_pulsesSound _ (wait _ _ _ (wait _ _ _ (setAgreement_pulsesSound _ hs) hrig) (by simpa using hrig))
  | some a =>
    rw [placeChoice_some]
    split
    · exact placeEqual_pulsesSound _ _ _ (placeEqual_pulsesSound _ _ _ (setAgreement_pulsesSound _ hs) hrig)
        (by simpa using hrig)
    · exact propose _ _ _ (propose _ _ _ (setAgreement_pulsesSound _ hs) hrig) (by simpa using hrig)

theorem awaitPeer_pulsesSound (e : Eye) {s : State} (hs : s.pulsesSound) (hrig : s.cg.rig ≠ .rolling) :
    (awaitPeer e s).pulsesSound :=
  waitEye_pulsesSound e _ _ (setAgreement_pulsesSound none hs) (unserved_of_not_rolling hs e hrig)

theorem runChoice_pulsesSound (cause : Option Eye) {s : State} (hs : s.pulsesSound) (hrig : s.cg.rig ≠ .rolling) :
    (runChoice cause s).pulsesSound := by
  unfold runChoice
  split
  · exact placeChoice_pulsesSound _ _ hs hrig
  · exact awaitPeer_pulsesSound _ hs hrig
  · exact awaitPeer_pulsesSound _ hs hrig
  · exact hs

/-! ## Departures and the end of a take -/

/-- Retirement drops pulses alone. -/
theorem retire_pulsesSound {s : State} (hs : s.pulsesSound) : (retire s).pulsesSound := by
  obtain ⟨hplan, hin, hprep, hout⟩ := hs
  have hstate : ∀ e, ((retire s).eye e).state = (s.eye e).state ∧ ((retire s).eye e).trig = (s.eye e).trig := by
    intro e
    simp only [retire, retireFrom_port]
    split <;> simp
  have hcg : (retire s).cg = s.cg := by simp
  simp only [State.pulsesSound, hcg, hstate]
  rw [show (retire s).tp = _ from retireFrom_tp _ _]
  refine ⟨hplan, hin, hprep, fun e h => ⟨(hout e h).1, ?_⟩⟩
  simp [retireFrom_pulses, (hout e h).2]

/-- A plan that records a departure still serves the eyes it served, but for the one that left (R72). -/
theorem PlanInProgress.depart_fields (e : Eye) (p : PlanInProgress) :
    (p.depart e).included = p.included ∧ (p.depart e).snapshot = p.snapshot ∧
      (p.depart e).departed = if p.included.get e then p.departed.set e true else p.departed := by
  unfold PlanInProgress.depart
  split <;> simp

theorem Plan.depart_fields (e : Eye) (p : Plan) :
    (p.depart e).included = p.included ∧
      (p.depart e).departed = if p.included.get e then p.departed.set e true else p.departed := by
  unfold Plan.depart
  split <;> simp

/-- The planner's side of a departure (R67, R72, R88). -/
theorem departEye_tp (e : Eye) (s : State) :
    (departEye e s).tp =
      { s.tp with
        pulses := (departEye e s).tp.pulses
        lastReadout := s.tp.lastReadout.set e none
        inProgress := s.tp.inProgress.map (PlanInProgress.depart e)
        prepared := s.tp.prepared.map (Plan.depart e) } := by
  simp only [departEye, loseParts, retire]
  rw [retireFrom_tp]
  simp

theorem departEye_unserved (e : Eye) (s : State) : (departEye e s).unserved e := by
  have included : ∀ (departed included : PerEye Bool), included.get e = true →
      (if included.get e then departed.set e true else departed).get e = true := by
    intro d i hi
    simp [hi]
  rw [State.unserved, departEye_tp]
  constructor
  · intro p hp hi
    obtain ⟨q, -, rfl⟩ := Option.map_eq_some_iff.mp hp
    simp only [PlanInProgress.depart_fields] at hi ⊢
    exact included _ _ hi
  · intro p hp hi
    obtain ⟨q, -, rfl⟩ := Option.map_eq_some_iff.mp hp
    simp only [Plan.depart_fields] at hi ⊢
    exact included _ _ hi

/-- Recording a departure marks no eye as served. -/
theorem departed_of_depart {included departed : PerEye Bool} (e e' : Eye)
    (h : (if included.get e then departed.set e true else departed).get e' = false) : departed.get e' = false := by
  split at h
  · rw [PerEye_get_set] at h
    split at h <;> simp_all
  · exact h

theorem departEye_pulsesSound (e : Eye) {s : State} (hs : s.pulsesSound) : (departEye e s).pulsesSound := by
  obtain ⟨hplan, hin, hprep, hout⟩ := hs
  refine retire_pulsesSound (pulsesSound_of_eq (s := (clearPrevious e (s.mapEye e fun p => { p with trig := none })).mapTp
    fun t => { t with
      pulses := t.pulses.set e []
      lastReadout := t.lastReadout.set e none
      inProgress := t.inProgress.map (PlanInProgress.depart e)
      prepared := t.prepared.map (Plan.depart e) }) ?_ rfl rfl fun _ => ⟨rfl, rfl⟩)
  have hstate : ∀ e', ((s.mapEye e fun p => { p with trig := none }).eye e').state = (s.eye e').state := by
    intro e'
    rw [State.mapEye_eye]
    split <;> simp [*]
  refine ⟨?_, ?_, ?_, ?_⟩
  · intro h
    simp [hplan h]
  · intro p hp e' hi hd
    obtain ⟨q, hq, rfl⟩ := Option.map_eq_some_iff.mp (by simpa using hp)
    simp only [PlanInProgress.depart_fields] at hi hd
    simpa [hstate] using hin q hq e' hi (departed_of_depart e e' hd)
  · intro p hp e' hi hd
    obtain ⟨q, hq, rfl⟩ := Option.map_eq_some_iff.mp (by simpa using hp)
    simp only [Plan.depart_fields] at hi hd
    simpa [hstate] using hprep q hq e' hi (departed_of_depart e e' hd)
  · intro e' ho
    simp only [State.mapTp_eye, clearPrevious_eye, hstate] at ho
    obtain ⟨h1, h2⟩ := hout e' ho
    simp only [State.mapTp_eye, clearPrevious_eye, State.mapEye_eye, State.mapTp_tp, clearPrevious_frame, PerEye_get_set]
    by_cases he : e' = e <;> simp [he, h1, h2]

theorem stopRunning_pulsesSound (e : Eye) {s : State} (hs : s.pulsesSound) : (stopRunning e s).pulsesSound := by
  unfold stopRunning
  split
  · exact setEyeState_pulsesSound e _ hs (.inl rfl)
  · exact hs

theorem rewriteOwed_pulsesSound (e : Eye) {s : State} (hs : s.pulsesSound) : (rewriteOwed e s).pulsesSound := by
  unfold rewriteOwed
  (repeat' split)
  · exact writeDirective_pulsesSound e _ hs
  · exact writeDirective_pulsesSound e _ hs
  · exact writeDirective_pulsesSound e _ hs
  · exact hs
  · exact hs

theorem stopRunning_tp (e : Eye) (s : State) : (stopRunning e s).tp = s.tp := by
  unfold stopRunning
  split <;> simp [setEyeState_tp]

/-- The plans are gone before the rig is DRAINING (R73). -/
theorem enterDraining_pulsesSound {s : State} (hs : s.pulsesSound) : (enterDraining s).pulsesSound := by
  have discarded : (discardPlan s).pulsesSound :=
    ⟨fun _ => ⟨rfl, rfl⟩, fun _ h => by simp [discardPlan] at h, fun _ h => by simp [discardPlan] at h, hs.2.2.2⟩
  have halted := writeDirective_pulsesSound .right .halt (writeDirective_pulsesSound .left .halt discarded)
  have stopped := stopRunning_pulsesSound .right (stopRunning_pulsesSound .left halted)
  obtain ⟨-, hin, hprep, hout⟩ := stopped
  have drained : ((stopRunning .right (stopRunning .left
      (writeDirective .right .halt (writeDirective .left .halt (discardPlan s))))).mapCg Cadence.drain).pulsesSound :=
    ⟨fun _ => by simp [stopRunning_tp, discardPlan], hin, hprep, hout⟩
  exact pulsesSound_of_eq (rewriteOwed_pulsesSound .right (rewriteOwed_pulsesSound .left drained)) (by simp [enterDraining])
    (by simp [enterDraining]) (by simp [enterDraining])

theorem testLoss_pulsesSound (e : Eye) {s : State} (hs : s.pulsesSound) : (testLoss e s).pulsesSound := by
  unfold testLoss
  split
  · exact enterDraining_pulsesSound hs
  · exact hs

/-! ## CAPS, ACCEPT, REFUSE and the leaving of an eye -/

theorem holdCaps_pulsesSound (e : Eye) (c : Option Caps) {s : State} (hs : s.pulsesSound) :
    (holdCaps e c s).pulsesSound := by
  refine pulsesSound_of_eq hs (by simp) (by simp) fun e' => ?_
  rw [holdCaps_eye]
  split <;> simp [*]

theorem clearExclusion_pulsesSound {s : State} (hs : s.pulsesSound) : (clearExclusion s).pulsesSound := hs

theorem rejoinTest_pulsesSound (e : Eye) (c : Caps) {s : State} (hs : s.pulsesSound) (h : s.unserved e) :
    (rejoinTest e c s).pulsesSound := by
  unfold rejoinTest
  (repeat' split)
  · exact waitEye_pulsesSound e _ _ hs h
  · exact waitEye_pulsesSound e _ _ hs h
  · exact proposeEye_pulsesSound e _ (setAgreement_pulsesSound _ hs) h

/-- What an eye that leaves the take is served by (R72): nothing, whether the rig goes on or drains. -/
theorem leaveTake_unserved (e : Eye) {s : State} (h : s.unserved e) : (leaveTake e s).unserved e := by
  unfold leaveTake testLoss
  split
  · simp [State.unserved, enterDraining, stopRunning_tp, discardPlan]
  · exact h

theorem rejoinOut_pulsesSound (e : Eye) (c : Caps) {s : State} (hs : s.pulsesSound) :
    (rejoinOut e c s).pulsesSound ∧ (rejoinOut e c s).unserved e := by
  have held := holdCaps_pulsesSound e (some c) (clearExclusion_pulsesSound hs)
  unfold rejoinOut
  split
  · have gone := departEye_unserved e (holdCaps e (some c) (clearExclusion s))
    have out := setEyeState_pulsesSound e .held (departEye_pulsesSound e held) (.inr gone)
    refine ⟨testLoss_pulsesSound e (raise_pulsesSound _ out), leaveTake_unserved e (unserved_congr e gone ?_ ?_)⟩ <;>
      simp [setEyeState_tp]
  · next h => exact ⟨held, unserved_of_not_inTake held (by simpa [holdCaps_eye] using h)⟩

theorem validCapsTake_pulsesSound (e : Eye) (c : Caps) {s : State} (hs : s.pulsesSound) :
    (validCapsTake e c s).pulsesSound :=
  rejoinTest_pulsesSound e c (rejoinOut_pulsesSound e c hs).1 (rejoinOut_pulsesSound e c hs).2

theorem validCapsSetup_pulsesSound (e : Eye) (c : Caps) {s : State} (hs : s.pulsesSound) (hrig : s.cg.rig = .setup) :
    (validCapsSetup e c s).pulsesSound := by
  have chosen := runChoice_pulsesSound (some e) (holdCaps_pulsesSound e (some c) (clearExclusion_pulsesSound hs))
    (by simp [hrig])
  simp only [validCapsSetup]
  split
  · exact pulsesSound_congr chosen rfl rfl rfl rfl fun _ => ⟨rfl, rfl⟩
  · exact chosen

theorem partnerWaits_pulsesSound (e : Eye) {s : State} (hs : s.pulsesSound) (hrig : s.cg.rig ≠ .rolling) :
    (partnerWaits e s).pulsesSound := by
  unfold partnerWaits
  (repeat' split)
  · exact waitEye_pulsesSound e _ _ hs (unserved_of_not_rolling hs e hrig)
  · exact writeDirective_pulsesSound e _ hs
  · exact hs

theorem invalidOut_pulsesSound (e : Eye) {s : State} (hs : s.pulsesSound) : (invalidOut e s).pulsesSound := by
  unfold invalidOut
  split
  · exact holdCaps_pulsesSound e none (clearExclusion_pulsesSound
      (waitEye_pulsesSound e _ _ (departEye_pulsesSound e hs) (departEye_unserved e s)))
  · next h =>
    exact holdCaps_pulsesSound e none (clearExclusion_pulsesSound
      (waitEye_pulsesSound e _ _ hs (unserved_of_not_inTake hs (by simpa using h))))

theorem invalidCaps_pulsesSound (e : Eye) {s : State} (hs : s.pulsesSound) : (invalidCaps e s).pulsesSound := by
  have out := invalidOut_pulsesSound e hs
  rw [invalidCaps_eq]
  split
  · next hrig => exact partnerWaits_pulsesSound _ (setAgreement_pulsesSound none out) (by simp [invalidOut_cg, hrig])
  · split
    · exact testLoss_pulsesSound e (raise_pulsesSound _ out)
    · exact out

theorem takeCaps_pulsesSound (e : Eye) (raw : RawCaps) {s : State} (hs : s.pulsesSound) :
    (takeCaps e raw s).pulsesSound := by
  unfold takeCaps
  split
  · exact invalidCaps_pulsesSound e hs
  · split
    · next hrig => exact validCapsSetup_pulsesSound e _ hs hrig
    · exact validCapsTake_pulsesSound e _ hs

/-- The eye that an AGREE in force names is PROPOSED, so no plan serves it. -/
theorem proposedIndex_eq_some {s : State} {e : Eye} {k : Nat} (h : s.proposedIndex e = some k) :
    (s.eye e).state = .proposed ∧ ∃ a, s.ae.agreement = some a ∧ a.index.get e = k := by
  unfold State.proposedIndex at h
  split at h
  · next hp => exact ⟨hp, by simpa using h⟩
  · cases h

theorem countLost_pulsesSound (e : Eye) {s : State} (hs : s.pulsesSound) : (countLost e s).pulsesSound := by
  refine pulsesSound_of_eq hs rfl rfl fun e' => ?_
  rw [countLost_eye]
  split <;> simp [EyePort.countLost, *]

theorem takeAccept_pulsesSound (e : Eye) (index : Byte) {s : State} (hs : s.pulsesSound) :
    (takeAccept e index s).pulsesSound := by
  unfold takeAccept
  split
  · exact writeDirective_pulsesSound e _ (setEyeState_pulsesSound e _ hs (.inl rfl))
  · exact countLost_pulsesSound e hs

theorem takeRefuse_pulsesSound (e : Eye) (index : Byte) {s : State} (hs : s.pulsesSound) :
    (takeRefuse e index s).pulsesSound := by
  unfold takeRefuse
  split
  · next h =>
    split
    · next hrig =>
      split
      · exact runChoice_pulsesSound none (s := excludePair _ s) hs (by simp [hrig])
      · exact hs
    · exact waitEye_pulsesSound e _ _ hs (unserved_of_not_inTake hs (by simp [(proposedIndex_eq_some h).1]))
  · exact countLost_pulsesSound e hs

theorem agreementAfterLeave_pulsesSound (e : Eye) {s : State} (hs : s.pulsesSound) :
    (agreementAfterLeave e s).pulsesSound := by
  unfold agreementAfterLeave
  dsimp only
  split
  · next hrig =>
    split
    · exact waitEye_pulsesSound _ _ _ (setAgreement_pulsesSound none (clearExclusion_pulsesSound hs))
        (unserved_of_not_rolling hs _ (by simpa using by simp [show s.cg.rig = .setup by simpa using hrig]))
    · exact setAgreement_pulsesSound none hs
  · exact clearExclusion_pulsesSound hs

/-- An update of a port that changes neither its state nor TRIG. -/
theorem mapEye_pulsesSound (e : Eye) (g : EyePort → EyePort) {s : State} (hs : s.pulsesSound)
    (hg : ∀ p, (g p).state = p.state ∧ (g p).trig = p.trig := by exact fun _ => ⟨rfl, rfl⟩) :
    (s.mapEye e g).pulsesSound := by
  refine pulsesSound_of_eq hs rfl rfl fun e' => ?_
  rw [State.mapEye_eye]
  split <;> simp [*]

theorem clearPrevious_pulsesSound (e : Eye) {s : State} (hs : s.pulsesSound) : (clearPrevious e s).pulsesSound := hs

theorem detachedOut_pulsesSound (e : Eye) {s : State} (hs : s.pulsesSound) : (detachedOut e s).pulsesSound := by
  have reset := mapEye_pulsesSound e EyePort.partialReset hs
  unfold detachedOut
  split
  · exact holdCaps_pulsesSound e none
      (setEyeState_pulsesSound e _ (departEye_pulsesSound e reset) (.inr (departEye_unserved e _)))
  · next h =>
    exact holdCaps_pulsesSound e none (setEyeState_pulsesSound e _ (clearPrevious_pulsesSound e reset)
      (.inr (unserved_of_not_inTake reset (by simpa [EyePort.partialReset] using h))))

theorem leaveAttached_pulsesSound (e : Eye) {s : State} (hs : s.pulsesSound) : (leaveAttached e s).pulsesSound := by
  have out := agreementAfterLeave_pulsesSound e (raise_pulsesSound .eyeChange (detachedOut_pulsesSound e hs))
  rw [leaveAttached_eq]
  split
  · exact testLoss_pulsesSound e out
  · exact out

end Sys2Proof.Machine
end

section
/-! PROOFS. Pulses and plans under the marks, the plan and the presence of an eye, and the statement (O55). -/

namespace Sys2Proof.Machine

/-! ## Marks and plans -/

theorem ageWindow_pulsesSound {s : State} (hs : s.pulsesSound) : (ageWindow s).pulsesSound := by
  refine retire_pulsesSound ?_
  obtain ⟨hplan, hin, hprep, hout⟩ := hs
  simp only [State.pulsesSound, State.mapPe_cg, State.mapPe_tp, State.mapPe_eye, forgetTimedOut_eye, forgetTimedOut_frame]
  rw [forgetTimedOut_tp]
  refine ⟨hplan, hin, hprep, fun e h => ⟨(hout e h).1, ?_⟩⟩
  simp [forgetTimedOut_pulses, (hout e h).2]

@[simp] theorem beginPlan_rig (c : Cadence) (a : Agreement) (now : Time) : (c.beginPlan a now).rig = c.rig := by
  unfold Cadence.beginPlan
  dsimp only
  split <;> rfl

/-- A plan begun now includes eyes of the take alone (R69). -/
theorem includedEyes_inTake {s : State} {e : Eye} (h : s.includedEyes.get e = true) : (s.eye e).state.inTake = true := by
  simp only [State.includedEyes, PerEye_get_map, Bool.or_eq_true, Bool.and_eq_true, decide_eq_true_eq] at h
  rcases h with h | h <;> simp [State.eye, h]

/-- A plan begins in ROLLING alone (R68). -/
theorem planStart_pulsesSound {s : State} (hs : s.pulsesSound) (hrig : s.cg.rig = .rolling) : (planStart s).pulsesSound := by
  have applied : ((applyPendingOps s).mapLme fun l => { l with clearMark := .both false }).pulsesSound :=
    pulsesSound_of_eq hs (by simp) (by simp) fun _ => by simp
  have hrig' : ((applyPendingOps s).mapLme fun l => { l with clearMark := .both false }).cg.rig = .rolling := by simp [hrig]
  unfold planStart
  generalize (applyPendingOps s).mapLme (fun l => { l with clearMark := .both false }) = x at applied hrig'
  dsimp only
  split
  · exact applied
  · obtain ⟨-, -, hprep, hout⟩ := applied
    refine ⟨fun h => absurd hrig' (by simpa using h), ?_, hprep, hout⟩
    intro p hp e hi _
    obtain rfl := Option.some.inj hp
    exact includedEyes_inTake (s := x) hi

theorem joinEye_pulsesSound (plan : Plan) (e : Eye) {s : State} (hs : s.pulsesSound) : (joinEye plan e s).pulsesSound := by
  unfold joinEye
  split
  · exact pulsesSound_congr (setEyeState_pulsesSound e .running hs (.inl rfl)) rfl rfl rfl rfl fun _ => ⟨rfl, rfl⟩
  · exact hs

theorem joinEye_prepared (plan : Plan) (e : Eye) (s : State) : (joinEye plan e s).tp.prepared = s.tp.prepared := by
  unfold joinEye
  split <;> simp [setEyeState_tp]

theorem firePulse_eye (e e' : Eye) (p : Pulse) (s : State) :
    (firePulse e p s).eye e' = if e' = e then { s.eye e with trig := some s.timebase } else s.eye e' := by
  simp [firePulse, State.mapEye_eye]

theorem firePulse_tp (e : Eye) (p : Pulse) (s : State) :
    (firePulse e p s).tp =
      { s.tp with
        triggerNumber := s.tp.triggerNumber.set e (s.tp.triggerNumber.get e + 1)
        pulses := s.tp.pulses.set e ((s.tp.pulses.get e).erase p) } := by
  simp [firePulse]

/-- A pulse fires for an eye of the take alone (R46). -/
theorem firePulse_pulsesSound (e : Eye) (p : Pulse) {s : State} (hs : s.pulsesSound)
    (hin : (s.eye e).state.inTake = true) : (firePulse e p s).pulsesSound := by
  have hstate : ∀ e', ((firePulse e p s).eye e').state = (s.eye e').state := by
    intro e'
    rw [firePulse_eye]
    split <;> simp [*]
  obtain ⟨hplan, hserved, hprep, hout⟩ := hs
  simp only [State.pulsesSound, hstate, firePulse_frame, firePulse_tp]
  refine ⟨hplan, hserved, hprep, fun e' h => ?_⟩
  obtain ⟨h1, h2⟩ := hout e' h
  have he : e' ≠ e := by
    rintro rfl
    simp [hin] at h
  simp [firePulse_eye, PerEye_get_set, he, h1, h2]

/-- The pulse a plan lays is that of an eye it serves, which is of the take (R84). -/
theorem layPulse_pulsesSound (plan : Plan) (e : Eye) (number : MarkNumber) {s : State} (hs : s.pulsesSound)
    (hp : s.tp.prepared = some plan) : (layPulse plan e number s).pulsesSound := by
  unfold layPulse
  split
  · next h =>
    have hserves : plan.included.get e = true ∧ plan.departed.get e = false := by
      simp only [Plan.serves, Bool.and_eq_true, Bool.not_eq_true'] at h
      exact h.1
    obtain ⟨hplan, hserved, hprep, hout⟩ := hs
    have hin := hprep plan hp e hserves.1 hserves.2
    have laid : ∀ (pulses : List Pulse) (last : Option Time),
        (s.mapTp fun t => { t with pulses := t.pulses.set e pulses, lastReadout := t.lastReadout.set e last }).pulsesSound := by
      refine fun pulses last => ⟨hplan, hserved, hprep, fun e' ho => ?_⟩
      obtain ⟨h1, h2⟩ := hout e' ho
      have he : e' ≠ e := by
        rintro rfl
        simp [hin] at ho
      simp [PerEye_get_set, he, h1, h2]
    dsimp only
    split
    · exact firePulse_pulsesSound e _ (laid _ _) (by simpa using hin)
    · exact laid _ _
  · exact hs

theorem layPulse_prepared (plan : Plan) (e : Eye) (number : MarkNumber) (s : State) :
    (layPulse plan e number s).tp.prepared = s.tp.prepared := by
  unfold layPulse
  dsimp only
  (repeat' split) <;> simp [firePulse_tp]

theorem passMark_rig (m : Time) (number : Option MarkNumber) (c : Cadence) : (c.passMark m number).rig = c.rig := by
  unfold Cadence.passMark
  (repeat' split) <;> rfl

@[simp] theorem numberMark_rig (m now : Time) (c : Cadence) : (c.numberMark m now).rig = c.rig := by
  simp [Cadence.numberMark, passMark_rig]

theorem rollMark_pulsesSound (m : Time) (plan : Plan) {s : State} (hs : s.pulsesSound) (hrig : s.cg.rig = .rolling)
    (hp : s.tp.prepared = some plan) : (rollMark m plan s).pulsesSound := by
  have aged : (ageWindow (s.mapCg (Cadence.numberMark m s.timebase))).pulsesSound :=
    ageWindow_pulsesSound (pulsesSound_of_eq hs (by simp) rfl fun _ => ⟨rfl, rfl⟩)
  have joined : (rollMarkJoined m plan s).pulsesSound := joinEye_pulsesSound plan _ (joinEye_pulsesSound plan _ aged)
  have opened : (rollMarkOpened m plan s).pulsesSound :=
    retire_pulsesSound (pulsesSound_of_eq joined rfl rfl fun _ => ⟨rfl, rfl⟩)
  have hopened : (rollMarkOpened m plan s).tp.prepared = some plan := by
    simp only [rollMarkOpened, openWindow, retire]
    rw [retireFrom_tp]
    simp only [State.mapPe_tp, rollMarkJoined, joinEye_prepared]
    rw [ageWindow_tp]
    exact hp
  have laid : (rollMarkLaid m plan s).pulsesSound :=
    layPulse_pulsesSound plan _ _ (layPulse_pulsesSound plan _ _ opened hopened)
      (by rw [layPulse_prepared, hopened])
  obtain ⟨-, hin, -, hout⟩ := laid
  have hlaid : (rollMarkLaid m plan s).cg.rig = .rolling := by
    simp [rollMarkLaid, rollMarkOpened, rollMarkJoined, hrig]
  rw [rollMark_eq]
  exact planStart_pulsesSound ⟨fun h => absurd hlaid h, hin, fun _ h => by simp at h, hout⟩ hlaid

theorem serveEye_pulsesSound (plan : Plan) (e : Eye) {s : State} (hs : s.pulsesSound) :
    (serveEye plan e s).pulsesSound := by
  unfold serveEye
  dsimp only
  (repeat' split)
  · exact writeDirective_pulsesSound e _ hs
  · exact pulsesSound_of_eq (writeDirective_pulsesSound e (plan.run e) hs) rfl rfl fun _ => ⟨rfl, rfl⟩
  · exact hs

/-- The completed plan serves the eyes that the plan in progress served (R70, R72). -/
theorem completePlan_pulsesSound {s : State} (hs : s.pulsesSound) : (completePlan s).pulsesSound := by
  unfold completePlan
  split
  · exact hs
  · next p hp =>
    have served := serveEye_pulsesSound p.plan .right (serveEye_pulsesSound p.plan .left hs)
    have htp : (serveEye p.plan .right (serveEye p.plan .left s)).tp = s.tp := by simp
    obtain ⟨hplan, hin, -, hout⟩ := served
    rw [htp] at hplan hin
    refine ⟨fun h => ?_, fun _ h => by simp at h, fun q hq e => ?_, hout⟩
    · simp [hp] at hplan
      simp [hplan] at h
    · obtain rfl := Option.some.inj hq
      exact hin p hp e

theorem advance_pulsesSound (n : Nat) {s : State} (hs : s.pulsesSound) : (advance n s).pulsesSound :=
  pulsesSound_of_eq hs rfl rfl fun _ => by simp

theorem mapCg_pulsesSound (g : Cadence → Cadence) {s : State} (hs : s.pulsesSound) (h : (g s.cg).rig = s.cg.rig) :
    (s.mapCg g).pulsesSound :=
  pulsesSound_of_eq hs h rfl fun _ => ⟨rfl, rfl⟩

theorem dueMark_eq_some {s : State} {k : MarkKind} {m : Time} (h : s.dueMark k = some m) :
    s.isHeld = false ∧ s.markKind = k ∧ s.cg.nextMark = some m := by
  unfold State.dueMark at h
  split at h
  · cases h
  · next hn =>
    simp only [not_or, Bool.not_eq_true, not_not, ne_eq] at hn
    exact ⟨hn.1, hn.2, h⟩

/-- Which rig state each kind of mark belongs to (R4, R9, R24). -/
theorem markKind_iff (s : State) :
    (s.markKind = .setupReference ↔ s.cg.rig = .setup) ∧
    (s.markKind = .lead ↔ s.cg.rig = .rolling ∧ s.cg.leadOwed = true) ∧
    (s.markKind = .rolling ↔ s.cg.rig = .rolling ∧ s.cg.leadOwed = false) ∧
    (s.markKind = .drain ↔ s.cg.rig = .draining) := by
  unfold State.markKind
  cases s.cg.rig <;> cases s.cg.leadOwed <;> simp

theorem rollingMarkEvent_pulsesSound (m : Time) {s : State} (hs : s.pulsesSound) (hrig : s.cg.rig = .rolling) :
    (rollingMarkEvent m s).pulsesSound := by
  have done := completePlan_pulsesSound (advance_pulsesSound (ticksUntil s.timebase m) hs)
  simp only [rollingMarkEvent, waitUntil]
  split
  · exact done
  · next plan hp => exact rollMark_pulsesSound m plan done (by simp [hrig]) hp

@[simp] theorem drainMark_rig (m now : Time) (c : Cadence) : (c.drainMark m now).rig = c.rig := by
  simp [Cadence.drainMark, passMark_rig]

theorem returnChoice_pulsesSound {s : State} (hs : s.pulsesSound) (hrig : s.cg.rig ≠ .rolling) :
    (returnChoice s).pulsesSound := by
  simp only [returnChoice]
  split
  · exact runChoice_pulsesSound none hs hrig
  · exact hs

theorem drainMarkEvent_pulsesSound (m : Time) {s : State} (hs : s.pulsesSound) (hrig : s.cg.rig = .draining) :
    (drainMarkEvent m s).pulsesSound := by
  have aged : (ageWindow ((waitUntil m s).mapCg (Cadence.drainMark m (waitUntil m s).timebase))).pulsesSound :=
    ageWindow_pulsesSound (mapCg_pulsesSound _ (advance_pulsesSound _ hs) (by simp))
  have hrig' : (ageWindow ((waitUntil m s).mapCg (Cadence.drainMark m (waitUntil m s).timebase))).cg.rig = .draining := by
    simp [hrig]
  simp only [drainMarkEvent]
  split
  · obtain ⟨hplan, hin, hprep, hout⟩ := aged
    exact returnChoice_pulsesSound ⟨fun _ => hplan (by rw [hrig']; decide), hin, hprep, hout⟩ (by simp [Cadence.endDrain])
  · exact aged

/-! ## Presence -/

/-- An update of a port of an eye outside the take that leaves it outside. -/
theorem mapEye_out_pulsesSound (e : Eye) (g : EyePort → EyePort) {s : State} (hs : s.pulsesSound)
    (hout : (s.eye e).state.inTake = false) (hg : (g (s.eye e)).state.inTake = false ∧ (g (s.eye e)).trig = (s.eye e).trig) :
    (s.mapEye e g).pulsesSound := by
  obtain ⟨hplan, hin, hprep, ho⟩ := hs
  have hstate : ∀ e', ((s.mapEye e g).eye e').state.inTake = (s.eye e').state.inTake := by
    intro e'
    rw [State.mapEye_eye]
    split <;> simp [hg, hout, *]
  simp only [State.pulsesSound, hstate]
  refine ⟨hplan, hin, hprep, fun e' h => ⟨?_, (ho e' h).2⟩⟩
  rw [State.mapEye_eye]
  split
  · next he =>
    subst he
    rw [hg.2, (ho e' h).1]
  · exact (ho e' h).1

theorem enablePort_pulsesSound (e : Eye) {s : State} (hs : s.pulsesSound) : (enablePort e s).pulsesSound := by
  unfold enablePort
  split
  · exact hs
  · by_cases hm : EyePort.maySettle { s.eye e with enabled := true } = true
    · refine mapEye_out_pulsesSound e _ hs ?_ ?_
      · simp only [EyePort.maySettle, Bool.and_eq_true, decide_eq_true_eq] at hm
        simp [hm.1.1]
      · simp [hm, EyePort.settle]
    · rw [mapEye_congr e _ (fun p => { p with enabled := true }) s (by simp [hm])]
      exact mapEye_pulsesSound e _ hs

theorem disablePort_pulsesSound (e : Eye) {s : State} (hs : s.pulsesSound) : (disablePort e s).pulsesSound := by
  have off := mapEye_pulsesSound e (fun p => { p with enabled := false }) hs
  simp only [disablePort]
  split
  · exact hs
  · split
    · exact leaveAttached_pulsesSound e off
    · next h =>
      have hout : (s.eye e).state.inTake = false := by
        by_contra hin
        exact h (EyeState.attached_of_inTake (by simpa using hin))
      exact mapEye_out_pulsesSound e _ off (by simpa using hout) (by simp)

theorem settleEye_pulsesSound (e : Eye) {s : State} (hs : s.pulsesSound) (hout : (s.eye e).state.inTake = false) :
    (settleEye e s).pulsesSound :=
  raise_pulsesSound _ (mapEye_pulsesSound e _
    (waitEye_pulsesSound e _ _ hs (unserved_of_not_inTake hs hout)))

theorem rise_pulsesSound (e : Eye) {s : State} (hs : s.pulsesSound) : (s.mapEye e EyePort.rise).pulsesSound := by
  by_cases hm : EyePort.maySettle { s.eye e with pres := true } = true
  · refine mapEye_out_pulsesSound e _ hs ?_ ?_
    · simp only [EyePort.maySettle, Bool.and_eq_true, decide_eq_true_eq] at hm
      simp [hm.1.1]
    · simp [EyePort.rise, hm, EyePort.settle]
  · refine pulsesSound_of_eq hs rfl rfl fun e' => ?_
    rw [State.mapEye_eye]
    split
    · next he =>
      subst he
      simp only [EyePort.rise, hm, Bool.false_eq_true, if_false]
      split <;> exact ⟨rfl, rfl⟩
    · exact ⟨rfl, rfl⟩

theorem fall_pulsesSound (e : Eye) {s : State} (hs : s.pulsesSound) : (s.mapEye e EyePort.fall).pulsesSound := by
  by_cases hst : (s.eye e).state = .settling
  · exact mapEye_out_pulsesSound e _ hs (by simp [hst]) (by simp [EyePort.fall, hst])
  · refine pulsesSound_of_eq hs rfl rfl fun e' => ?_
    rw [State.mapEye_eye]
    split
    · next he =>
      subst he
      simp only [EyePort.fall, hst, if_false]
      split <;> exact ⟨rfl, rfl⟩
    · exact ⟨rfl, rfl⟩

/-! ## Decisions, transactions and resets -/

theorem startTake_pulsesSound {s : State} (hs : s.pulsesSound) (hrig : s.cg.rig = .setup) :
    (startTake s).pulsesSound := by
  have hplan := hs.1 (by simp [hrig])
  have started : ∀ x : State, x.cg.rig = .rolling → x.tp.inProgress = s.tp.inProgress → x.tp.prepared = s.tp.prepared →
      x.tp.pulses = s.tp.pulses → x.eyes = s.eyes → x.pulsesSound := by
    intro x hx h1 h2 h3 h4
    refine ⟨fun h => absurd hx h, fun p hp => ?_, fun p hp => ?_, fun e h => ?_⟩
    · simp [h1, hplan] at hp
    · simp [h2, hplan] at hp
    · simp only [State.eye, h4, h3] at h ⊢
      exact hs.2.2.2 e h
  simp only [startTake]
  split
  · exact planStart_pulsesSound (started _ (by simp) (by simp) (by simp) (by simp) (by simp)) (by simp)
  · exact started _ (by simp) (by simp) (by simp) (by simp) (by simp)

theorem mayRoll_setup {s : State} (h : s.mayRoll = true) : s.cg.rig = .setup := by
  simp only [State.mayRoll, Bool.and_eq_true, decide_eq_true_eq] at h
  exact h.1.1.1

@[simp] theorem readTakeFrame_rig (s : State) (f : TakeFrame) :
    (clearExclusion (s.mapAe fun a => { a with frame := f })).cg = s.cg := rfl

theorem decision_pulsesSound {s t : State} {r : Request} (hs : s.pulsesSound) (h : Decision s r t) : t.pulsesSound := by
  cases h with
  | unchanged => exact hs
  | profile p f hrig hf =>
    exact runChoice_pulsesSound none (s := clearExclusion (s.mapAe fun a => { a with frame := f })) hs (by simp [hrig])
  | toRef code hrig => exact mapCg_pulsesSound _ hs rfl
  | toFree code hrig => exact mapCg_pulsesSound _ hs rfl
  | rate target marks hsource => exact mapCg_pulsesSound _ hs (by unfold Cadence.setRate; split <;> rfl)
  | roll h => exact startTake_pulsesSound hs (mayRoll_setup h)
  | cut hrig => exact enterDraining_pulsesSound hs
  | enable eye action e => exact enablePort_pulsesSound e hs
  | disable eye action e => exact disablePort_pulsesSound e hs
  | commit slot copy => exact pulsesSound_of_eq hs (by simp) (by simp) fun _ => by simp
  | discard slot => exact pulsesSound_of_eq hs (by simp) (by simp) fun _ => by simp
  | shutter | demand | stageReset | stageWrite | save | clear =>
    exact pulsesSound_congr hs rfl rfl rfl rfl fun _ => ⟨rfl, rfl⟩

theorem eyeStart_pulsesSound (e : Eye) (early : Nat) {s : State} (hs : s.pulsesSound) :
    (eyeStart e early s).pulsesSound := by
  unfold eyeStart
  (repeat' split)
  · exact hs
  · exact mapEye_pulsesSound e _ hs
  · exact mapEye_pulsesSound e _ hs

theorem placeReport_pulsesSound (e : Eye) (r : Option Report) {s : State} (hs : s.pulsesSound) :
    (placeReport e r s).pulsesSound := by
  unfold placeReport
  (repeat' split)
  · exact countLost_pulsesSound e hs
  · exact countLost_pulsesSound e hs
  · exact hs
  · exact countLost_pulsesSound e hs
  · exact mapEye_pulsesSound e _ hs

theorem eyeEnd_pulsesSound (e : Eye) (n : Nat) (r : Option Report) {s : State} (hs : s.pulsesSound) :
    (eyeEnd e n r s).pulsesSound := by
  have started := mapEye_pulsesSound e (fun p => { p with txn := p.txn.map (EyeTxn.clock n) })
    (eyeStart_pulsesSound e 0 hs)
  have shut := mapEye_pulsesSound e (EyePort.finishUnserved n) started
  simp only [eyeEnd]
  (repeat' split)
  · exact placeReport_pulsesSound e r (mapEye_pulsesSound e _ started)
  · exact shut
  · exact shut

theorem holdInReset_pulsesSound (s : State) : (holdInReset s).pulsesSound := by
  refine ⟨fun _ => ⟨rfl, rfl⟩, fun _ h => by simp [TriggerPlanner.atReset] at h,
    fun _ h => by simp [TriggerPlanner.atReset] at h, fun e _ => ?_⟩
  cases e <;> exact ⟨rfl, rfl⟩

theorem enforceReset_pulsesSound (k : ResetKind) (s : State) : (enforceReset k s).pulsesSound := holdInReset_pulsesSound _

theorem releasePart_eye (s : State) (e : Eye) :
    (releasePart s).eye e = if (s.eye e).maySettle then (s.eye e).settle else s.eye e := by
  cases e <;> rfl

theorem endReset_pulsesSound (k : ResetKind) {s : State} (hs : s.pulsesSound) : (endReset k s).pulsesSound := by
  have lifted : ((advance (s.resets.remaining k) s).mapResets (Resets.lift k)).pulsesSound :=
    pulsesSound_of_eq (advance_pulsesSound _ hs) rfl rfl fun _ => ⟨rfl, rfl⟩
  unfold endReset
  generalize (advance (s.resets.remaining k) s).mapResets (Resets.lift k) = x at lifted
  dsimp only
  (repeat' split)
  · exact lifted
  · obtain ⟨hplan, hin, hprep, hout⟩ := lifted
    have hport : ∀ e, ((releasePart x).eye e).state.inTake = (x.eye e).state.inTake ∧
        ((releasePart x).eye e).trig = (x.eye e).trig := by
      intro e
      rw [releasePart_eye]
      split
      · next hm =>
        simp only [EyePort.maySettle, Bool.and_eq_true, decide_eq_true_eq] at hm
        simp [EyePort.settle, hm.1.1]
      · simp
    exact ⟨hplan, fun p hp e hi hd => by rw [(hport e).1]; exact hin p hp e hi hd,
      fun p hp e hi hd => by rw [(hport e).1]; exact hprep p hp e hi hd,
      fun e h => by rw [(hport e).1] at h; rw [(hport e).2]; exact hout e h⟩
  · exact hs

/-- An eye that settles is not of the take; one that detaches is attached. -/
theorem settleLeft_eq_some {p : EyePort} {n : Nat} (h : p.settleLeft = some n) :
    p.state = .settling ∧ p.pres = true ∧ ∃ c, p.timer = .high c ∧ n = Config.settleTicks - c := by
  unfold EyePort.settleLeft at h
  split at h
  · next c h1 h2 h3 => exact ⟨h1, h3, c, h2, (Option.some.inj h).symm⟩
  · cases h

/-- The Cadence Generator after an edge that its window holds, as a step of its own (R18 to R22). -/
def Cadence.edgeTaken (a : AgreementEngine) (w : RefWindow) (p : Nat) (e : Time) (c : Cadence) : Cadence :=
  { c with
    ref := .locked, period := some (updatedPeriod a c p e)
    lock := ⟨some e, 0, if decide (c.ref = .holdover) && w.event.isNone then true else c.lock.stepOwed⟩
    nextMark := if w.event.isNone then c.nextMark
      else some (correctedMark w.mark (w.periodUsed (updatedPeriod a c p e)) e)
    window := some ⟨correctedMark w.mark (w.periodUsed (updatedPeriod a c p e)) e, updatedPeriod a c p e / 8, none⟩ }

theorem attributeEdge_cg (w : RefWindow) (p : Nat) (s : State) :
    (attributeEdge w p s).cg = s.cg.edgeTaken s.ae w p s.timebase := by
  unfold attributeEdge
  dsimp only
  (repeat' split) <;> rfl

theorem refEdge_rig (s : State) : (refEdge s).cg.rig = s.cg.rig := by
  have seek : ∀ now (c : Cadence), (c.seekEdge now).rig = c.rig := by
    intro now c
    unfold Cadence.seekEdge
    dsimp only
    (repeat' split) <;> rfl
  unfold refEdge
  (repeat' split)
  · rfl
  · exact seek _ _
  · rw [attributeEdge_cg]
    rfl
  · rfl
  · rfl

/-- TRIG falls (R46). -/
theorem trigFalls_pulsesSound (e : Eye) {s : State} (hs : s.pulsesSound) :
    (s.mapEye e fun p => { p with trig := none }).pulsesSound := by
  have hstate : ∀ e', ((s.mapEye e fun p => { p with trig := none }).eye e').state = (s.eye e').state := by
    intro e'
    rw [State.mapEye_eye]
    split <;> simp [*]
  obtain ⟨hplan, hin, hprep, hout⟩ := hs
  simp only [State.pulsesSound, hstate]
  refine ⟨hplan, hin, hprep, fun e' h => ⟨?_, (hout e' h).2⟩⟩
  rw [State.mapEye_eye]
  split
  · rfl
  · exact (hout e' h).1

theorem Move.pulsesSound {c : Instr} {s t : State} (hs : s.pulsesSound) (h : Move s c t) : t.pulsesSound := by
  have taken : ∀ e, (emptySlot e s).pulsesSound := fun e => mapEye_pulsesSound e _ hs
  cases h with
  | nothing => exact hs
  | rcpStart early => exact pulsesSound_of_eq hs (by simp) (by simp) fun _ => by simp [State.eye]
  | judged _ n v =>
    exact judged_keeps_of_decisions (fun _ _ h => h) (fun _ _ _ => decision_pulsesSound)
      (fun k s _ => enforceReset_pulsesSound k s) n v hs
  | eyeStart e early => exact eyeStart_pulsesSound e early hs
  | eyeEnd _ e n r => exact eyeEnd_pulsesSound e n r hs
  | capsTaken e raw => exact takeCaps_pulsesSound e raw (taken e)
  | acceptTaken e index => exact takeAccept_pulsesSound e index (taken e)
  | refuseTaken e index => exact takeRefuse_pulsesSound e index (taken e)
  | frameTaken e f =>
    unfold matchFrame
    split
    · exact countLost_pulsesSound e (taken e)
    · exact retire_pulsesSound (pulsesSound_of_eq (taken e) (by simp) (by simp) fun _ => by simp)
  | presLevel _ e b => exact mapEye_pulsesSound e _ hs
  | presRise e => exact rise_pulsesSound e hs
  | presFall e => exact fall_pulsesSound e hs
  | settled e n h => exact settleEye_pulsesSound e (advance_pulsesSound n hs) (by simp [(settleLeft_eq_some h).1])
  | detached e n => exact leaveAttached_pulsesSound e (advance_pulsesSound n hs)
  | rollingMark m h => exact rollingMarkEvent_pulsesSound m hs ((markKind_iff s).2.2.1.1 (dueMark_eq_some h).2.1).1
  | planComplete => exact completePlan_pulsesSound hs
  | drainMark m h => exact drainMarkEvent_pulsesSound m hs ((markKind_iff s).2.2.2.1 (dueMark_eq_some h).2.1)
  | leadMark m h =>
    exact planStart_pulsesSound (mapCg_pulsesSound _ (advance_pulsesSound _ hs) (by simp [passMark_rig]))
      (by simp [passMark_rig, ((markKind_iff s).2.1.1 (dueMark_eq_some h).2.1).1])
  | setupMark m => exact mapCg_pulsesSound _ (advance_pulsesSound _ hs) (by simp [passMark_rig])
  | refinEdge => exact pulsesSound_of_eq hs (refEdge_rig s) (by simp) fun _ => by simp
  | windowClose w p =>
    refine pulsesSound_of_eq (advance_pulsesSound (ticksUntil s.timebase (after w.mark w.half)) hs) ?_ ?_ fun e => ?_ <;>
      simp only [closeRefWindow] <;> split <;> simp [Cadence.closeWindow]
  | pulse e p h hin => exact firePulse_pulsesSound e p (advance_pulsesSound _ hs) (by simpa using hin)
  | pulseEnd e t =>
    exact trigFalls_pulsesSound e (advance_pulsesSound (ticksUntil s.timebase (after t Config.pulseTicks)) hs)
  | saveComplete =>
    unfold completeSave
    split
    · exact hs
    · exact pulsesSound_of_eq (advance_pulsesSound _ hs) rfl rfl fun _ => ⟨rfl, rfl⟩
  | loadComplete => exact pulsesSound_of_eq hs (by simp) (by simp) fun _ => by simp
  | pairStart early => exact pulsesSound_of_eq hs (by simp) (by simp) fun _ => by simp
  | pairEnd n => exact pulsesSound_of_eq hs (by simp) (by simp) fun _ => by simp
  | reset _ k => exact enforceReset_pulsesSound k s
  | release k => exact endReset_pulsesSound k hs

/-- Settles O55: every move keeps pulses and plans with the take, and a tick touches neither. -/
theorem pulsesStayWithTheTake : Obligations.PulsesStayWithTheTake := fun _ _ hs h =>
  step_keeps (fun _ _ h => h) (fun _ h => advance_pulsesSound 1 h) (fun _ _ _ => Move.pulsesSound) hs h

end Sys2Proof.Machine
end

section
/-! PROOFS. Notices (O12; R168): every operation of the part but the rig control port's own leaves the port as it is or adds
notices to its set; only CLEAR_NOTICES takes one out, and only one it names. -/

namespace Sys2Proof.Machine

/-- A notice added to the set is in it, beside those that were (R168). -/
theorem hasNotice_addNotice (set : BitVec 8) (n m : Notice) :
    hasNotice (addNotice set n) m = (hasNotice set m || decide (m = n)) := by
  have hbit : (1#8 <<< n.bit).getLsbD m.bit = decide (m = n) := by
    cases n <;> cases m <;> decide
  simp only [hasNotice, addNotice, BitVec.getLsbD_or, hbit]

/-- The rig control port of `t` is that of `s` with notices added. -/
def State.raisedTo (s t : State) : Prop :=
  t.rcp = { s.rcp with notices := t.rcp.notices } ∧
    ∀ n, hasNotice s.rcp.notices n = true → hasNotice t.rcp.notices n = true

theorem raisedTo_of_rcp {s t : State} (h : t.rcp = s.rcp) : s.raisedTo t := by
  constructor
  · rw [h]
  · intro n hn
    rwa [h]

theorem State.raisedTo.trans {s t u : State} (h : s.raisedTo t) (h' : t.raisedTo u) : s.raisedTo u := by
  obtain ⟨ht, hn⟩ := h
  obtain ⟨hu, hn'⟩ := h'
  exact ⟨by rw [hu, ht], fun n h => hn' n (hn n h)⟩

/-- Operations around one that only adds notices, which leave the port as it is. -/
theorem State.raisedTo.congr {s t s' t' : State} (h : s.raisedTo t) (hs : s.rcp = s'.rcp) (ht : t'.rcp = t.rcp) :
    s'.raisedTo t' :=
  ((raisedTo_of_rcp hs).trans h).trans (raisedTo_of_rcp ht)

theorem raise_raisedTo (n : Notice) (s : State) : s.raisedTo (raise n s) :=
  ⟨rfl, fun m hm => by simp [raise, State.mapRcp, hasNotice_addNotice, hm]⟩

/-- A raised notice is in the set. -/
@[simp] theorem hasNotice_raise (n : Notice) (s : State) : hasNotice (raise n s).rcp.notices n = true := by
  simp [raise, State.mapRcp, hasNotice_addNotice]

/-! ## Retirement -/

theorem offer_raisedTo (r : PairRecord) (s : State) : s.raisedTo (offer r s) := by
  unfold offer
  split
  · exact raisedTo_of_rcp rfl
  · exact (raise_raisedTo _ _).congr rfl rfl

theorem retireFrom_raisedTo (l : List PairSlot) (s : State) : s.raisedTo (retireFrom l s) := by
  induction l generalizing s with
  | nil => exact raisedTo_of_rcp rfl
  | cons slot rest ih =>
    rw [retireFrom]
    split
    · exact ((offer_raisedTo _ _).congr (by simp) rfl).trans (ih _)
    · exact raisedTo_of_rcp rfl

theorem retire_raisedTo (s : State) : s.raisedTo (retire s) := retireFrom_raisedTo _ s

theorem ageWindow_raisedTo (s : State) : s.raisedTo (ageWindow s) := (retire_raisedTo _).congr (by simp) rfl

theorem matchFrame_raisedTo (e : Eye) (f : RawFrame) (s : State) : s.raisedTo (matchFrame e f s) := by
  unfold matchFrame
  split
  · exact raisedTo_of_rcp rfl
  · exact (retire_raisedTo _).congr (by simp) rfl

theorem departEye_raisedTo (e : Eye) (s : State) : s.raisedTo (departEye e s) := (retire_raisedTo _).congr (by simp) rfl

/-! ## The choice, CAPS and departures -/

theorem placeChoice_raisedTo (cause : Option Eye) (outcome : Option Agreement) (s : State) :
    s.raisedTo (placeChoice cause outcome s) := by
  cases outcome with
  | none => exact (raise_raisedTo _ _).congr (by simp) rfl
  | some a =>
    rw [placeChoice_some]
    split <;> exact raisedTo_of_rcp (by simp)

theorem runChoice_raisedTo (cause : Option Eye) (s : State) : s.raisedTo (runChoice cause s) := by
  unfold runChoice
  split
  · exact placeChoice_raisedTo _ _ s
  · exact raisedTo_of_rcp (by simp)
  · exact raisedTo_of_rcp (by simp)
  · exact raisedTo_of_rcp (by simp)

theorem leaveTake_raisedTo (e : Eye) (s : State) : s.raisedTo (leaveTake e s) :=
  (raise_raisedTo .eyeChange s).congr rfl (by simp [leaveTake])

theorem invalidOut_raisedTo (e : Eye) (s : State) : s.raisedTo (invalidOut e s) := by
  unfold invalidOut
  split
  · exact (departEye_raisedTo e s).congr rfl (by simp)
  · exact raisedTo_of_rcp (by simp)

theorem invalidCaps_raisedTo (e : Eye) (s : State) : s.raisedTo (invalidCaps e s) := by
  have out := invalidOut_raisedTo e s
  rw [invalidCaps_eq]
  (repeat' split)
  · exact out.congr rfl (by simp)
  · exact out.trans (leaveTake_raisedTo e _)
  · exact out

theorem rejoinOut_raisedTo (e : Eye) (c : Caps) (s : State) : s.raisedTo (rejoinOut e c s) := by
  unfold rejoinOut
  split
  · exact ((departEye_raisedTo e (holdCaps e (some c) (clearExclusion s))).congr (by simp) (by simp)).trans
      (leaveTake_raisedTo e _)
  · exact raisedTo_of_rcp (by simp)

theorem takeCaps_raisedTo (e : Eye) (raw : RawCaps) (s : State) : s.raisedTo (takeCaps e raw s) := by
  unfold takeCaps
  split
  · exact invalidCaps_raisedTo e s
  · split
    · next c _ _ =>
      have chosen := (runChoice_raisedTo (some e) (holdCaps e (some c) (clearExclusion s))).congr (s' := s) (by simp) rfl
      simp only [validCapsSetup]
      split
      · exact chosen.congr rfl (by simp)
      · exact chosen
    · next c _ _ => exact (rejoinOut_raisedTo e c s).congr rfl (by simp [validCapsTake_eq])

theorem takeRefuse_raisedTo (e : Eye) (index : Byte) (s : State) : s.raisedTo (takeRefuse e index s) := by
  unfold takeRefuse
  (repeat' split)
  · exact (runChoice_raisedTo _ _).congr (by simp) rfl
  · exact raisedTo_of_rcp rfl
  · exact raisedTo_of_rcp (by simp)
  · exact raisedTo_of_rcp rfl

theorem detachedOut_raisedTo (e : Eye) (s : State) : s.raisedTo (detachedOut e s) := by
  unfold detachedOut
  split
  · exact (departEye_raisedTo e (s.mapEye e EyePort.partialReset)).congr (by simp) (by simp)
  · exact raisedTo_of_rcp (by simp)

theorem leaveAttached_raisedTo (e : Eye) (s : State) : s.raisedTo (leaveAttached e s) := by
  have out := (detachedOut_raisedTo e s).trans (raise_raisedTo .eyeChange _)
  rw [leaveAttached_eq]
  split <;> exact out.congr rfl (by simp)

theorem disablePort_raisedTo (e : Eye) (s : State) : s.raisedTo (disablePort e s) := by
  simp only [disablePort]
  (repeat' split)
  · exact raisedTo_of_rcp rfl
  · exact (leaveAttached_raisedTo e _).congr (by simp) rfl
  · exact raisedTo_of_rcp rfl

theorem settleEye_raisedTo (e : Eye) (s : State) : s.raisedTo (settleEye e s) := (raise_raisedTo _ _).congr (by simp) rfl

/-! ## Marks, the reference and the store -/

theorem rollMark_raisedTo (m : Time) (plan : Plan) (s : State) : s.raisedTo (rollMark m plan s) := by
  have aged : s.raisedTo (rollMarkJoined m plan s) :=
    (ageWindow_raisedTo (s.mapCg (Cadence.numberMark m s.timebase))).congr rfl (by simp [rollMarkJoined])
  have opened : s.raisedTo (rollMarkOpened m plan s) := aged.trans ((retire_raisedTo ((rollMarkJoined m plan s).mapPe _)).congr rfl rfl)
  exact opened.congr rfl (by simp [rollMark_eq, rollMarkLaid])

theorem rollingMarkEvent_raisedTo (m : Time) (s : State) : s.raisedTo (rollingMarkEvent m s) := by
  simp only [rollingMarkEvent]
  split
  · exact raisedTo_of_rcp (by simp)
  · exact (rollMark_raisedTo m _ _).congr (by simp) rfl

theorem drainMarkEvent_raisedTo (m : Time) (s : State) : s.raisedTo (drainMarkEvent m s) := by
  have aged : s.raisedTo (ageWindow ((waitUntil m s).mapCg (Cadence.drainMark m (waitUntil m s).timebase))) :=
    (ageWindow_raisedTo ((waitUntil m s).mapCg _)).congr rfl rfl
  simp only [drainMarkEvent, returnChoice]
  generalize ageWindow ((waitUntil m s).mapCg (Cadence.drainMark m (waitUntil m s).timebase)) = x at aged
  (repeat' split)
  · exact aged.trans ((runChoice_raisedTo none (x.mapCg Cadence.endDrain)).congr rfl rfl)
  · exact aged
  · exact aged

theorem refEdge_raisedTo (s : State) : s.raisedTo (refEdge s) := by
  simp only [refEdge, attributeEdge]
  (repeat' split)
  · exact raisedTo_of_rcp rfl
  · exact raisedTo_of_rcp rfl
  · exact (raise_raisedTo .refBack s).congr rfl (by simp [raise])
  · exact (raise_raisedTo .refBack s).congr rfl (by simp [raise])
  · exact raisedTo_of_rcp rfl
  · exact raisedTo_of_rcp rfl
  · exact raisedTo_of_rcp rfl

theorem closeRefWindow_raisedTo (w : RefWindow) (p : Nat) (s : State) : s.raisedTo (closeRefWindow w p s) := by
  simp only [closeRefWindow]
  split
  · exact (raise_raisedTo _ _).congr rfl rfl
  · exact raisedTo_of_rcp rfl

theorem finishLoad_raisedTo (s : State) : s.raisedTo (finishLoad s) := by
  simp only [finishLoad]
  split
  · exact (raise_raisedTo .storeBad (s.mapLts fun l => { l with slots := loadSlots [] s.lts.nv, store := .ready })).congr rfl
      (by simp)
  · exact raisedTo_of_rcp (by simp)

theorem completeLoad_raisedTo (s : State) : s.raisedTo (completeLoad s) := by
  unfold completeLoad
  split
  · exact finishLoad_raisedTo s
  · exact raisedTo_of_rcp rfl

theorem completeSave_raisedTo (s : State) : s.raisedTo (completeSave s) := by
  unfold completeSave
  split
  · exact raisedTo_of_rcp rfl
  · exact (raise_raisedTo _ _).congr rfl rfl

/-! ## Requests -/

/-- No decision but that of CLEAR_NOTICES takes a notice out of the set. -/
theorem decision_raisedTo {s t : State} {r : Request} (h : Decision s r t) :
    s.raisedTo t ∨ ∃ mask, r = .clearNotices mask ∧ t = s.mapRcp (RigPort.clearNamed (mask.setWidth 8)) := by
  cases h with
  | clear mask => exact .inr ⟨mask, rfl, rfl⟩
  | profile p f => exact .inl ((runChoice_raisedTo _ _).congr (by simp) rfl)
  | disable eye action e => exact .inl (disablePort_raisedTo e s)
  | _ => exact .inl (raisedTo_of_rcp (by simp))

/-- The whole bytes among bits that are all 0 are 0x00. -/
theorem eq_zero_of_mem_wholeBytes {l : List Bool} (h : ∀ b ∈ l, b = false) : ∀ b ∈ wholeBytes l, b = 0 := by
  fun_induction wholeBytes l with
  | case1 b7 b6 b5 b4 b3 b2 b1 b0 rest ih =>
    simp only [List.mem_cons, forall_eq_or_imp] at h ⊢
    obtain ⟨rfl, rfl, rfl, rfl, rfl, rfl, rfl, rfl, hrest⟩ := h
    exact ⟨by decide, ih hrest⟩
  | case2 => simp

/-- Bytes that are all 0x00 are a collection (R163). -/
theorem judgeTransaction_zeros {bytes : List Byte} (h : ∀ b ∈ bytes, b = 0) : judgeTransaction bytes = .collection := by
  rw [judgeTransaction, if_pos]
  simpa using h

theorem judgeTransaction_collection (count : Nat) :
    judgeTransaction (wholeBytes (List.replicate count false)) = .collection :=
  judgeTransaction_zeros (eq_zero_of_mem_wholeBytes fun _ hb => List.eq_of_mem_replicate hb)

/-- The commands that a CLEAR_NOTICES comes from: its own, or bits that spell it. -/
theorem Judged.clearNotices {c : Instr} {mask : BitVec 16} (h : Judged c (.request (.clearNotices mask))) :
    (∃ pad, c = .clearNotices mask pad) ∨
      ∃ bits, c = .rcpRecordRefused bits ∧ judgeTransaction (wholeBytes bits) = .request (.clearNotices mask) := by
  generalize hv : Verdict.request (.clearNotices mask) = v at h
  cases h with
  | bits b => exact .inr ⟨b, rfl, rfl⟩
  | collection count => simp [judgeTransaction_collection] at hv
  | request _ r pad hr =>
    obtain rfl := Verdict.request.inj hv
    exact .inl ⟨pad, (Option.some.inj hr).symm⟩
  | unframed echo => cases hv

@[simp] theorem enforceReset_isHeld (k : ResetKind) (s : State) : (enforceReset k s).isHeld = true := by
  cases k <;> simp [enforceReset, State.isHeld, Resets.inForce, State.mapResets]

/-- What a move does to the rig control port: it only raises notices, or it is a transaction of that port or a reset. -/
theorem Move.rcp_cases {c : Instr} {s t : State} (h : Move s c t) :
    s.raisedTo t ∨ (∃ early, t = Machine.rcpStart early s) ∨ (∃ n v, Judged c v ∧ t = rcpEnd n (actOn v) s) ∨
      ∃ k, t = enforceReset k s := by
  cases h with
  | judged _ n v hv => exact .inr (.inr (.inl ⟨n, v, hv, rfl⟩))
  | reset _ k => exact .inr (.inr (.inr ⟨k, rfl⟩))
  | rcpStart early => exact .inr (.inl ⟨early, rfl⟩)
  | capsTaken e raw => exact .inl ((takeCaps_raisedTo e raw _).congr (by simp) rfl)
  | refuseTaken e index => exact .inl ((takeRefuse_raisedTo e index _).congr (by simp) rfl)
  | frameTaken e f => exact .inl ((matchFrame_raisedTo e f _).congr (by simp) rfl)
  | settled e k => exact .inl ((settleEye_raisedTo e _).congr (by simp) rfl)
  | detached e k => exact .inl ((leaveAttached_raisedTo e _).congr (by simp) rfl)
  | rollingMark m => exact .inl (rollingMarkEvent_raisedTo m s)
  | drainMark m => exact .inl (drainMarkEvent_raisedTo m s)
  | refinEdge => exact .inl (refEdge_raisedTo s)
  | windowClose w p => exact .inl (closeRefWindow_raisedTo w p s)
  | saveComplete => exact .inl (completeSave_raisedTo s)
  | loadComplete => exact .inl (completeLoad_raisedTo s)
  | release k =>
    refine .inl ?_
    unfold endReset
    dsimp only
    (repeat' split)
    · exact raisedTo_of_rcp rfl
    · exact (raise_raisedTo .resetSeen _).congr rfl rfl
    · exact raisedTo_of_rcp rfl
  | _ => exact .inl (raisedTo_of_rcp (by simp))

@[simp] theorem rcpStart_notices (early : Nat) (s : State) : (rcpStart early s).rcp.notices = s.rcp.notices := by
  simp only [rcpStart]
  split
  · rfl
  · simp only [State.mapRcp_rcp]
    split <;> rfl

/-- Settles O12: every move but a CLEAR_NOTICES, in which the named notices leave, and a reset keeps the notices there. -/
theorem noticesLeaveOnlyWhenNamed : Obligations.NoticesLeaveOnlyWhenNamed := by
  unfold Obligations.NoticesLeaveOnlyWhenNamed
  intro c s t n hc hn hn'
  obtain h | ⟨early, rfl⟩ | ⟨k, v, hv, rfl⟩ | ⟨k, rfl⟩ := (move_of_exec hc).rcp_cases
  · simp [h.2 n hn] at hn'
  · rw [rcpStart_notices] at hn'
    exact absurd hn (by simp [hn'])
  · obtain ⟨l, h | ⟨h, -⟩⟩ := rcpEnd_cases k (actOn v) s
    · rw [h] at hn'
      exact absurd hn (by simpa using hn')
    · rw [h] at hn' ⊢
      cases v with
      | collection => exact absurd hn (by simpa [actOn] using hn')
      | format echo => exact absurd hn (by simpa [actOn, answer, respond, State.mapRcp] using hn')
      | unknown echo => exact absurd hn (by simpa [actOn, answer, respond, State.mapRcp] using hn')
      | request r =>
        obtain ⟨u, kind, code, body, hd, hr⟩ | ⟨-, hr⟩ := decideRequest_cases r (s.rcpShut l)
        · simp only [actOn, hr] at hn' ⊢
          obtain hu | ⟨mask, rfl, rfl⟩ := decision_raisedTo hd
          · exact absurd (hu.2 n (by simpa using hn)) (by simpa [respond, State.mapRcp] using hn')
          · have hmask : mask.getLsbD n.bit = true := by
              simpa [respond, State.mapRcp, RigPort.hasNotice_clearNamed, hn] using hn'
            obtain ⟨pad, rfl⟩ | ⟨bits, rfl, hb⟩ := hv.clearNotices
            · exact .inl ⟨mask, pad, rfl, hmask⟩
            · exact .inr (.inl ⟨bits, mask, rfl, hb, hmask⟩)
        · simp only [actOn, hr]
          exact .inr (.inr (enforceReset_isHeld _ _))
  · exact .inr (.inr (enforceReset_isHeld k s))

end Sys2Proof.Machine
end

section
/-! PROOFS. The eye ports stay sound (O54): one port under each change of it (R26 to R44), then both ports under the
operations that change eye states and directive buffers. -/

namespace Sys2Proof.Machine

/-! ## One port -/

/-- The transaction record and the image of a sound port (R33 to R35, R39). -/
def EyePort.txnSound (p : EyePort) : Prop :=
  (∀ t, p.txn = some t → p.selLow = true ∧ t.bytesIn = p.sent.length / 8 ∧ t.bytesOut = t.bytesIn ∧
    p.sent = clockOut (imageBytes p.image) p.sent.length) ∧
    (p.image.isSome = true → ∃ t, p.txn = some t ∧ t.served = true)

theorem EyePort.txnSound_none {p : EyePort} (h : p.txn = none) (h' : p.image = none) : p.txnSound := by
  simp [EyePort.txnSound, h, h']

theorem EyePort.timerSound_attached {p : EyePort} (h : p.state.attached = true) :
    p.timerSound ↔ ∃ c, c ≤ 100000 ∧ p.timer = .low c := by
  unfold EyePort.timerSound
  cases hs : p.state <;> simp_all

/-- What soundness says of the port of an attached eye. -/
theorem EyePort.sound_attached {p : EyePort} (h : p.state.attached = true) :
    p.sound ↔ (∃ c, c ≤ 100000 ∧ p.timer = .low c) ∧ p.lost ≤ 255 ∧ p.enabled = true ∧ p.buffer.isSome = true ∧
      p.txnSound := by
  have hd : p.state ≠ .detached := by
    intro hd
    simp [hd] at h
  simp [EyePort.sound, EyePort.timerSound_attached h, h, hd, EyePort.txnSound]

/-- What soundness says of the port of an eye that is not attached. -/
theorem EyePort.sound_unattached {p : EyePort} (h : p.state.attached = false) :
    p.sound ↔ p.timerSound ∧ p.lost ≤ 255 ∧ (p.state ≠ .detached → p.enabled = true) ∧ p.caps = none ∧ p.slot = none ∧
      p.image = none ∧ (∀ t, p.txn = some t → t.served = false) ∧ p.txnSound := by
  simp only [EyePort.sound, h, Bool.false_eq_true, false_implies, true_and, true_implies, EyePort.txnSound, and_assoc]

theorem EyePort.attached_of_caps {p : EyePort} (hs : p.sound) (h : p.caps ≠ none) : p.state.attached = true := by
  by_contra hn
  exact h ((EyePort.sound_unattached (by simpa using hn)).1 hs).2.2.2.1

theorem EyePort.attached_of_slot {p : EyePort} (hs : p.sound) (h : p.slot ≠ none) : p.state.attached = true := by
  by_contra hn
  exact h ((EyePort.sound_unattached (by simpa using hn)).1 hs).2.2.2.2.1

/-- A write to the directive buffer does not touch the bytes of the transaction (R37). -/
theorem EyePort.writeDirective_txnSound {p : EyePort} (d : Directive) (h : p.txnSound) :
    (p.writeDirective d).txnSound := by
  obtain ⟨h1, h2⟩ := h
  constructor
  · intro t ht
    obtain ⟨x, hx, rfl⟩ := Option.map_eq_some_iff.mp ht
    exact h1 x hx
  · intro hi
    obtain ⟨x, hx, hserved⟩ := h2 hi
    exact ⟨{ x with writeSinceLatch := true }, by simp [EyePort.writeDirective, hx], hserved⟩

theorem EyePort.writeDirective_sound {p : EyePort} (d : Directive) (h : p.sound) : (p.writeDirective d).sound := by
  by_cases ha : p.state.attached = true
  · obtain ⟨ht, hl, he, -, hx⟩ := (EyePort.sound_attached ha).1 h
    exact (EyePort.sound_attached (by simpa using ha)).2
      ⟨by simpa using ht, by simpa using hl, by simpa using he, by simp, EyePort.writeDirective_txnSound d hx⟩
  · obtain ⟨ht, hl, he, hc, hs, hi, hu, hx⟩ := (EyePort.sound_unattached (by simpa using ha)).1 h
    refine (EyePort.sound_unattached (by simpa using ha)).2
      ⟨ht, hl, he, hc, hs, hi, fun t h => ?_, EyePort.writeDirective_txnSound d hx⟩
    obtain ⟨x, hx, rfl⟩ := Option.map_eq_some_iff.mp h
    exact hu x hx

/-- An attached eye changes to another attached state. -/
theorem EyePort.enterState_sound {p : EyePort} {st : EyeState} (h : p.sound) (ha : p.state.attached = true)
    (hst : st.attached = true) : (p.enterState st).sound := by
  obtain ⟨ht, hl, he, hb, hx⟩ := (EyePort.sound_attached ha).1 h
  exact (EyePort.sound_attached (by simpa using hst)).2 ⟨ht, hl, he, hb, hx⟩

theorem EyePort.lost_sound {p : EyePort} (n : Nat) (b : Bool) (hn : n ≤ 255) (h : p.sound) :
    ({ p with lost := n, takenFull := b } : EyePort).sound := by
  obtain ⟨ht, -, hrest⟩ := h
  exact ⟨ht, hn, hrest⟩

theorem EyePort.takeLost_sound {p : EyePort} (h : p.sound) : p.takeLost.sound := EyePort.lost_sound 0 _ (by simp) h

theorem EyePort.countLost_sound {p : EyePort} (h : p.sound) : p.countLost.sound := by
  refine EyePort.lost_sound _ p.takenFull ?_ h
  simp only [Config.lostMax]
  split <;> omega

theorem EyePort.clearCaps_sound {p : EyePort} (h : p.sound) : ({ p with caps := none } : EyePort).sound := by
  obtain ⟨ht, hl, he, hb, hu, hx⟩ := h
  exact ⟨ht, hl, he, hb, fun ha => ⟨rfl, (hu ha).2⟩, hx⟩

theorem EyePort.emptySlot_sound {p : EyePort} (h : p.sound) : ({ p with slot := none } : EyePort).sound := by
  obtain ⟨ht, hl, he, hb, hu, hx⟩ := h
  exact ⟨ht, hl, he, hb, fun ha => ⟨(hu ha).1, rfl, (hu ha).2.2⟩, hx⟩

theorem EyePort.holdCaps_sound {p : EyePort} (c : Option Caps) (h : p.sound) (ha : c ≠ none → p.state.attached = true) :
    ({ p with caps := c } : EyePort).sound := by
  cases c with
  | none => exact EyePort.clearCaps_sound h
  | some c =>
    have ha := ha (by simp)
    exact (EyePort.sound_attached (p := { p with caps := some c }) ha).2 ((EyePort.sound_attached ha).1 h)

theorem EyePort.fillSlot_sound {p : EyePort} (r : Report) (h : p.sound) (ha : p.state.attached = true) :
    ({ p with slot := some r } : EyePort).sound :=
  (EyePort.sound_attached (p := { p with slot := some r }) ha).2 ((EyePort.sound_attached ha).1 h)

/-- A port in the partial reset of an eye that has left (R29). -/
theorem EyePort.sound_of_left {p : EyePort} (hstate : p.state = .detached) (htimer : p.timer = .idle) (hlost : p.lost ≤ 255)
    (hcaps : p.caps = none) (hslot : p.slot = none) (himage : p.image = none) (htxn : p.txn = none) : p.sound :=
  (EyePort.sound_unattached (by simp [hstate])).2
    ⟨by simp [EyePort.timerSound, hstate, htimer], hlost, by simp [hstate], hcaps, hslot, himage, by simp [htxn],
      EyePort.txnSound_none htxn himage⟩

theorem EyePort.atReset_sound (pres selLow : Bool) (sent : List Bool) : (EyePort.atReset pres selLow sent).sound :=
  EyePort.sound_of_left rfl rfl (by simp [EyePort.atReset]) rfl rfl rfl rfl

/-- The presence timer counts on, and never beyond the debounce (R27, R28). -/
theorem EyePort.advance_sound {p : EyePort} (n : Nat) (h : p.sound) : (p.advance n).sound := by
  obtain ⟨ht, hl, he, hb, hu, hx⟩ := h
  refine ⟨?_, hl, he, hb, hu, hx⟩
  unfold EyePort.timerSound at ht ⊢
  simp only [EyePort.advance_state, EyePort.advance_timer, EyePort.advance_fields]
  split at ht
  · simp [ht, PresenceTimer.advance]
  · obtain ⟨hp, c, hc, htimer⟩ := ht
    refine ⟨hp, min (c + n) 10000000, by omega, ?_⟩
    simp [htimer, PresenceTimer.advance, hp, Config.settleTicks]
  · obtain ⟨c, hc, htimer⟩ := ht
    by_cases hp : p.pres = true
    · exact ⟨c, hc, by simp [htimer, PresenceTimer.advance, hp]⟩
    · exact ⟨min (c + n) 100000, by omega, by simp [htimer, PresenceTimer.advance, hp, Config.detachTicks]⟩

/-! ## Transactions of one port -/

/-- A falling edge of SEL#: the image of a served transaction alone, of which SDO has carried the beginning (R34, R37). -/
theorem EyePort.start_sound {p : EyePort} (early : Nat) (h : p.sound) : (p.start early).sound := by
  have hx : (p.start early).txnSound := by
    constructor
    · intro t ht
      obtain rfl := Option.some.inj ht
      simp [EyePort.start]
    · intro hi
      refine ⟨_, rfl, ?_⟩
      by_contra hn
      simp [EyePort.start, EyePort.latch, hn] at hi
  by_cases ha : p.state.attached = true
  · obtain ⟨ht, hl, he, hb, -⟩ := (EyePort.sound_attached ha).1 h
    exact (EyePort.sound_attached (by exact ha)).2 ⟨ht, hl, he, hb, hx⟩
  · obtain ⟨ht, hl, he, hc, hs, hi, hu, -⟩ := (EyePort.sound_unattached (by simpa using ha)).1 h
    have hserves : p.serves = false := by simp [EyePort.serves, ha]
    refine (EyePort.sound_unattached (by simpa [EyePort.start] using ha)).2 ⟨ht, hl, he, hc, hs, ?_, ?_, hx⟩
    · simp [EyePort.start, EyePort.latch, hserves]
    · rintro t ht
      obtain rfl := Option.some.inj ht
      exact hserves

/-- The port once its transaction record is gone. -/
theorem EyePort.closed_sound {p : EyePort} (fresh : Bool) (sent : List Bool) (h : p.sound) :
    ({ p with selLow := false, txn := none, fresh := fresh, image := none, sent := sent } : EyePort).sound := by
  obtain ⟨ht, hl, he, hb, hu, -⟩ := h
  refine ⟨ht, hl, he, hb, fun ha => ⟨(hu ha).1, (hu ha).2.1, rfl, by simp⟩, by simp, by simp⟩

/-! ## Presence of one eye -/

theorem EyePort.settle_sound {p : EyePort} (h : p.sound) (hm : p.maySettle = true) : p.settle.sound := by
  simp only [EyePort.maySettle, Bool.and_eq_true, decide_eq_true_eq] at hm
  obtain ⟨⟨hd, he⟩, hp⟩ := hm
  obtain ⟨-, hl, -, hc, hs, hi, hu, hx⟩ := (EyePort.sound_unattached (by simp [hd])).1 h
  exact (EyePort.sound_unattached (by simp [EyePort.settle])).2
    ⟨⟨hp, 0, by simp, rfl⟩, hl, fun _ => he, hc, hs, hi, hu, hx⟩

/-- The level of PRES, and a new count of an attached eye, keep the port sound but for an eye that settles. -/
theorem EyePort.pres_sound {p : EyePort} (b : Bool) (h : p.sound) (hs : p.state ≠ .settling) :
    ({ p with pres := b } : EyePort).sound := by
  obtain ⟨ht, hrest⟩ := h
  refine ⟨?_, hrest⟩
  unfold EyePort.timerSound at ht ⊢
  dsimp only
  split
  · next hd => simpa [hd] using ht
  · next hd => exact absurd hd hs
  · next h1 h2 =>
    split at ht
    · next hd => exact absurd hd h1
    · next hd => exact absurd hd h2
    · exact ht

theorem EyePort.restart_sound {p : EyePort} (h : p.sound) (ha : p.state.attached = true) :
    ({ p with timer := .low 0 } : EyePort).sound := by
  obtain ⟨-, hl, he, hb, hx⟩ := (EyePort.sound_attached ha).1 h
  exact (EyePort.sound_attached (by exact ha)).2 ⟨⟨0, by simp, rfl⟩, hl, he, hb, hx⟩

theorem EyePort.rise_sound {p : EyePort} (h : p.sound) (hp : p.pres = false) : p.rise.sound := by
  have hset : p.state ≠ .settling := by
    intro hs
    have ht := h.1
    simp [EyePort.timerSound, hs, hp] at ht
  have hpres := EyePort.pres_sound true h hset
  unfold EyePort.rise
  dsimp only
  (repeat' split)
  · next hm => exact EyePort.settle_sound hpres hm
  · next ha => exact EyePort.restart_sound hpres ha
  · exact hpres

theorem EyePort.fall_sound {p : EyePort} (h : p.sound) : p.fall.sound := by
  unfold EyePort.fall
  dsimp only
  split
  · next hs =>
    obtain ⟨-, hl, -, hc, hslot, hi, hu, hx⟩ := (EyePort.sound_unattached (by simp [hs])).1 h
    exact (EyePort.sound_unattached (by rfl)).2 ⟨rfl, hl, fun hd => absurd rfl hd, hc, hslot, hi, hu, hx⟩
  · next hs =>
    have hpres := EyePort.pres_sound false h hs
    split
    · next ha => exact EyePort.restart_sound hpres ha
    · exact hpres

/-- The debounce of a SETTLING eye completes: LISTENING with a WAIT (R27, R47). -/
theorem EyePort.settled_sound {p : EyePort} (d : Directive) (h : p.sound) (hs : p.state = .settling) :
    ({ (p.enterState .listening).writeDirective d with timer := .low 0 } : EyePort).sound := by
  obtain ⟨-, hl, he, -, -, -, -, hx⟩ := (EyePort.sound_unattached (by simp [hs])).1 h
  refine (EyePort.sound_attached (by rfl)).2 ⟨⟨0, by simp, rfl⟩, hl, he (by simp [hs]), rfl, ?_⟩
  exact EyePort.writeDirective_txnSound (p := p.enterState .listening) d hx

/-! ## Both ports -/

/-- Both eye ports are sound. -/
def State.portsSound (s : State) : Prop := ∀ e, (s.eye e).sound

theorem portsSound_of_eyes {s t : State} (hs : s.portsSound) (h : ∀ e, t.eye e = s.eye e) : t.portsSound := fun e => by
  rw [h e]
  exact hs e

theorem mapEye_portsSound (e : Eye) (g : EyePort → EyePort) {s : State} (hs : s.portsSound)
    (hg : (s.eye e).sound → (g (s.eye e)).sound) : (s.mapEye e g).portsSound := by
  intro e'
  rw [State.mapEye_eye]
  split
  · exact hg (hs e)
  · exact hs e'

theorem writeDirective_portsSound (e : Eye) (d : Directive) {s : State} (hs : s.portsSound) :
    (writeDirective e d s).portsSound :=
  mapEye_portsSound e _ hs (EyePort.writeDirective_sound d)

theorem countLost_portsSound (e : Eye) {s : State} (hs : s.portsSound) : (countLost e s).portsSound :=
  mapEye_portsSound e _ hs EyePort.countLost_sound

theorem emptySlot_portsSound (e : Eye) {s : State} (hs : s.portsSound) : (emptySlot e s).portsSound :=
  mapEye_portsSound e _ hs EyePort.emptySlot_sound

theorem setEyeState_portsSound (e : Eye) (st : EyeState) {s : State} (hs : s.portsSound)
    (ha : (s.eye e).state.attached = true) (hst : st.attached = true) : (setEyeState e st s).portsSound := by
  intro e'
  rw [setEyeState_eye]
  split
  · exact EyePort.enterState_sound (hs e) ha hst
  · exact hs e'

theorem waitEye_portsSound (e : Eye) (st : EyeState) (r : WaitReason) {s : State} (hs : s.portsSound)
    (ha : (s.eye e).state.attached = true) (hst : st.attached = true) : (waitEye e st r s).portsSound := by
  intro e'
  rw [waitEye_eye]
  split
  · exact EyePort.writeDirective_sound _ (EyePort.enterState_sound (hs e) ha hst)
  · exact hs e'

theorem proposeEye_portsSound (e : Eye) (a : Agreement) {s : State} (hs : s.portsSound)
    (ha : (s.eye e).state.attached = true) : (proposeEye e a s).portsSound :=
  writeDirective_portsSound e _ (setEyeState_portsSound e _ hs ha rfl)

/-- Retirement touches the lost-report counts alone. -/
theorem retire_portsSound {s : State} (hs : s.portsSound) : (retire s).portsSound := by
  intro e
  rw [retire, retireFrom_port]
  split
  · exact hs e
  · exact EyePort.takeLost_sound (hs e)

theorem holdCaps_portsSound (e : Eye) (c : Option Caps) {s : State} (hs : s.portsSound)
    (ha : c ≠ none → (s.eye e).state.attached = true) : (holdCaps e c s).portsSound := by
  intro e'
  rw [holdCaps_eye]
  split
  · exact EyePort.holdCaps_sound c (hs e) ha
  · exact hs e'

end Sys2Proof.Machine
end

section
/-! PROOFS. What a departure, the entry into DRAINING, and a departure for DETACHED leave of the eye ports (R6, R29, R64,
R143). -/

namespace Sys2Proof.Machine

/-- A port in the partial reset of an eye that has left: DETACHED, without CAPS, its lost-report count kept (R29). -/
def EyePort.left (p : EyePort) : EyePort :=
  { p with
    state := .detached, timer := .idle, txn := none, buffer := none, fresh := false, image := none, slot := none
    caps := none, trig := none }

/-- The window once the open parts of an eye are MISSING (R143). -/
def State.lostWindow (s : State) (e : Eye) : List PairSlot := s.pe.window.map (PairSlot.mapPart e EyePart.depart)

/-- The slots that a departure of an eye completes at the front of the window. -/
def State.lostSlots (s : State) (e : Eye) : List PairSlot := (s.lostWindow e).takeWhile PairSlot.complete

theorem loseParts_window (e : Eye) (s : State) : (loseParts e s).pe.window = (s.lostWindow e).dropWhile PairSlot.complete :=
  retireFrom_window _ _

theorem loseParts_eye (e e' : Eye) (s : State) :
    (loseParts e s).eye e' = if s.lostSlots e = [] then s.eye e' else (s.eye e').takeLost :=
  retireFrom_port _ _ _

theorem departEye_eye (e e' : Eye) (s : State) :
    (departEye e s).eye e' =
      if s.lostSlots e = [] then (if e' = e then { s.eye e with trig := none } else s.eye e')
      else (if e' = e then { s.eye e with trig := none } else s.eye e').takeLost := by
  have hslots : ∀ u : State, u.pe = s.pe → u.lostSlots e = s.lostSlots e := fun u hu => by
    simp only [State.lostSlots, State.lostWindow, hu]
  unfold departEye
  rw [loseParts_eye, hslots _ (by simp)]
  simp [State.mapEye_eye]

/-- The eye that detaches is in its partial reset; the other loses at most its lost-report count, to a record. -/
theorem detachedOut_eye (e e' : Eye) (s : State) :
    (detachedOut e s).eye e' =
      if (s.eye e).state.inTake = true ∧ s.lostSlots e ≠ [] then (if e' = e then (s.eye e).left else s.eye e').takeLost
      else if e' = e then (s.eye e).left else s.eye e' := by
  have hslots : (s.mapEye e EyePort.partialReset).lostSlots e = s.lostSlots e := by
    simp only [State.lostSlots, State.lostWindow, State.mapEye_pe]
  unfold detachedOut
  by_cases hin : (s.eye e).state.inTake = true
  · by_cases hl : s.lostSlots e = []
    · obtain rfl | rfl := Eye_eq_or_eq_other e e' <;>
        simp [holdCaps_eye, setEyeState_eye, departEye_eye, State.mapEye_eye, hin, hslots, hl, EyePort.left,
          EyePort.partialReset, EyePort.enterState]
    · obtain rfl | rfl := Eye_eq_or_eq_other e e' <;>
        simp [holdCaps_eye, setEyeState_eye, departEye_eye, State.mapEye_eye, hin, hslots, hl, EyePort.left,
          EyePort.partialReset, EyePort.enterState, EyePort.takeLost]
  · obtain rfl | rfl := Eye_eq_or_eq_other e e' <;>
      simp [holdCaps_eye, setEyeState_eye, State.mapEye_eye, hin, EyePort.left, EyePort.partialReset, EyePort.enterState]

/-! ## Entry into DRAINING -/

/-- A RUNNING eye becomes AGREED (R6). -/
def EyePort.stopped (p : EyePort) : EyePort := if p.state = .running then p.enterState .agreed else p

theorem stopRunning_eye (e e' : Eye) (s : State) :
    (stopRunning e s).eye e' = if e' = e then (s.eye e).stopped else s.eye e' := by
  unfold stopRunning EyePort.stopped
  by_cases h : (s.eye e).state = .running
  · simp [h, setEyeState_eye]
  · simp only [h, if_false]
    split <;> simp [*]

/-- The directive owed to an eye that is not AGREED (R64). -/
def State.owed (s : State) (e : Eye) : Option Directive :=
  match (s.eye e).state, s.ae.agreement with
  | .listening, _ => some (.wait (s.ae.reason.get e))
  | .held, _ => some (.wait (s.ae.reason.get e))
  | .proposed, some a => some (agreeDirective a e)
  | _, _ => none

theorem State.owed_getD (s : State) (e : Eye) : (s.owed e).getD .halt = s.drainDirective e := by
  unfold State.owed State.drainDirective
  cases (s.eye e).state <;> cases s.ae.agreement <;> rfl

theorem rewriteOwed_eq (e : Eye) (s : State) :
    rewriteOwed e s = match s.owed e with | some d => writeDirective e d s | none => s := by
  unfold rewriteOwed State.owed
  cases (s.eye e).state <;> cases s.ae.agreement <;> rfl

theorem rewriteOwed_eye (e e' : Eye) (s : State) :
    (rewriteOwed e s).eye e' =
      if e' = e then (match s.owed e with | some d => (s.eye e).writeDirective d | none => s.eye e) else s.eye e' := by
  rw [rewriteOwed_eq]
  cases s.owed e with
  | none =>
    dsimp only
    split <;> simp [*]
  | some d => exact writeDirective_eye e e' d s

/-- What an eye is owed depends on its own state, reason and the agreement alone; a RUNNING eye is owed nothing as an AGREED
one. -/
theorem owed_congr {s t : State} (e : Eye) (hstate : (t.eye e).state = (s.eye e).stopped.state) (hae : t.ae = s.ae) :
    t.owed e = s.owed e := by
  unfold State.owed
  rw [hstate, hae]
  unfold EyePort.stopped
  cases h : (s.eye e).state <;> simp [h]

@[simp] theorem EyePort.stopped_writeDirective (p : EyePort) (d : Directive) :
    (p.writeDirective d).stopped = p.stopped.writeDirective d := by
  unfold EyePort.stopped
  simp only [EyePort.writeDirective_fields]
  split <;> rfl

/-- Entry into DRAINING: each eye is AGREED instead of RUNNING and has the directive that DRAINING owes it (R6, R64). -/
theorem enterDraining_eye (s : State) (e : Eye) :
    (enterDraining s).eye e = (s.eye e).stopped.writeDirective (s.drainDirective e) := by
  rw [← State.owed_getD]
  have howed : ∀ (e : Eye) (u : State), (∀ e', u.eye e' = (s.eye e').stopped.writeDirective .halt) → u.ae = s.ae →
      u.owed e = s.owed e := fun e u h hae => owed_congr e (by simp [h e]) hae
  unfold enterDraining
  dsimp only
  generalize hu : (stopRunning .right (stopRunning .left (writeDirective .right .halt (writeDirective .left .halt
    (discardPlan s))))).mapCg Cadence.drain = u
  have heye : ∀ e', u.eye e' = (s.eye e').stopped.writeDirective .halt := by
    intro e'
    subst hu
    cases e' <;> simp [stopRunning_eye, writeDirective_eye]
  have hae : u.ae = s.ae := by
    subst hu
    simp
  have hleft : (rewriteOwed .left u).eye .right = u.eye .right := by simp [rewriteOwed_eye]
  have hright : (rewriteOwed .left u).owed .right = s.owed .right :=
    (owed_congr .right (by rw [hleft, heye]; simp) (by simp [hae])).trans rfl
  rw [applyPendingOps_eye, rewriteOwed_eye]
  cases e with
  | left =>
    simp only [reduceCtorEq, if_false, rewriteOwed_eye, if_true, howed .left u heye hae, heye]
    cases s.owed .left <;> simp
  | right =>
    simp only [if_true, hright, hleft, heye]
    cases s.owed .right <;> simp

@[simp] theorem EyePort.stopped_attached (p : EyePort) : p.stopped.state.attached = p.state.attached := by
  unfold EyePort.stopped
  split
  · next h => simp [h]
  · rfl

@[simp] theorem EyePort.stopped_inTake (p : EyePort) : p.stopped.state.inTake = p.state.inTake := by
  unfold EyePort.stopped
  split
  · next h => simp [h]
  · rfl

theorem EyePort.stopped_eq (p : EyePort) :
    p.stopped = { p with state := if p.state = .running then .agreed else p.state } := by
  unfold EyePort.stopped EyePort.enterState
  split <;> simp [*]

end Sys2Proof.Machine
end

section
/-! PROOFS. The eye ports stay sound (O54), continued: every move of an unheld part keeps both ports sound; a held part stays
at its reset values. -/

namespace Sys2Proof.Machine

/-! ## Departures and the entry into DRAINING -/

theorem EyePort.stopped_sound {p : EyePort} (h : p.sound) : p.stopped.sound := by
  unfold EyePort.stopped
  split
  · next hr => exact EyePort.enterState_sound h (by simp [hr]) rfl
  · exact h

theorem EyePort.trigLow_sound {p : EyePort} (h : p.sound) : ({ p with trig := none } : EyePort).sound := h

theorem departEye_portsSound (e : Eye) {s : State} (hs : s.portsSound) : (departEye e s).portsSound := by
  intro e'
  have h : (if e' = e then { s.eye e with trig := none } else s.eye e').sound := by
    split
    · exact EyePort.trigLow_sound (hs e)
    · exact hs e'
  rw [departEye_eye]
  split
  · exact h
  · exact EyePort.takeLost_sound h

theorem departEye_attached (e e' : Eye) (s : State) :
    ((departEye e s).eye e').state.attached = (s.eye e').state.attached := by
  rw [departEye_eye]
  split <;> split <;> simp [*]

theorem enterDraining_portsSound {s : State} (hs : s.portsSound) : (enterDraining s).portsSound := by
  intro e
  rw [enterDraining_eye]
  exact EyePort.writeDirective_sound _ (EyePort.stopped_sound (hs e))

theorem testLoss_portsSound (e : Eye) {s : State} (hs : s.portsSound) : (testLoss e s).portsSound := by
  unfold testLoss
  split
  · exact enterDraining_portsSound hs
  · exact hs

theorem testLoss_attached (e e' : Eye) (s : State) :
    ((testLoss e s).eye e').state.attached = (s.eye e').state.attached := by
  unfold testLoss
  split
  · simp [enterDraining_eye]
  · rfl

/-- The port of an eye that has left is sound, whatever it was but for its count. -/
theorem EyePort.left_sound {p : EyePort} (h : p.lost ≤ 255) : p.left.sound := EyePort.sound_of_left rfl rfl h rfl rfl rfl rfl

/-- An eye that leaves has any port with a bounded count: a disable has already taken its enable. -/
theorem detachedOut_portsSound (e : Eye) {s : State} (hother : (s.eye e.other).sound) (hlost : (s.eye e).lost ≤ 255) :
    (detachedOut e s).portsSound := by
  intro e'
  have h : (if e' = e then (s.eye e).left else s.eye e').sound := by
    split
    · exact EyePort.left_sound hlost
    · next hne => rwa [Eye_ne_iff.1 hne]
  rw [detachedOut_eye]
  split
  · exact EyePort.takeLost_sound h
  · exact h

theorem agreementAfterLeave_portsSound (e : Eye) {s : State} (hs : s.portsSound) : (agreementAfterLeave e s).portsSound := by
  have hc : (clearExclusion s).portsSound := portsSound_of_eyes hs (by simp)
  unfold agreementAfterLeave
  dsimp only
  split
  · split
    · next hcaps =>
      exact waitEye_portsSound e.other _ _ (portsSound_of_eyes hs (by simp))
        (EyePort.attached_of_caps (portsSound_of_eyes hs (by simp) _) (Option.isSome_iff_ne_none.1 hcaps)) rfl
    · exact portsSound_of_eyes hs (by simp)
  · exact hc

theorem leaveAttached_portsSound (e : Eye) {s : State} (hother : (s.eye e.other).sound) (hlost : (s.eye e).lost ≤ 255) :
    (leaveAttached e s).portsSound := by
  have hout : (agreementAfterLeave e (raise .eyeChange (detachedOut e s))).portsSound :=
    agreementAfterLeave_portsSound e (portsSound_of_eyes (detachedOut_portsSound e hother hlost) (by simp))
  rw [leaveAttached_eq]
  split
  · exact testLoss_portsSound e hout
  · exact hout

theorem disablePort_portsSound (e : Eye) {s : State} (hs : s.portsSound) : (disablePort e s).portsSound := by
  unfold disablePort
  dsimp only
  (repeat' split)
  · exact hs
  · refine leaveAttached_portsSound e ?_ ?_ <;> simp [State.mapEye_eye, hs e.other, (hs e).2.1]
  · next he ha =>
    rw [mapEye_mapEye]
    refine mapEye_portsSound e _ hs fun h => ?_
    obtain ⟨-, hl, -, hc, hslot, hi, hu, hx⟩ := (EyePort.sound_unattached (by simpa using ha)).1 h
    exact (EyePort.sound_unattached (by rfl)).2 ⟨rfl, hl, fun hd => absurd rfl hd, hc, hslot, hi, hu, hx⟩

theorem enablePort_portsSound (e : Eye) {s : State} (hs : s.portsSound) : (enablePort e s).portsSound := by
  unfold enablePort
  split
  · exact hs
  · refine mapEye_portsSound e _ hs fun h => ?_
    have hen : ({ s.eye e with enabled := true } : EyePort).sound := by
      obtain ⟨ht, hl, -, hrest⟩ := h
      exact ⟨ht, hl, fun _ => rfl, hrest⟩
    dsimp only
    split
    · next hm => exact EyePort.settle_sound hen hm
    · exact hen

/-! ## The choice, and reports taken -/

theorem placeEqual_portsSound (cause : Option Eye) (a : Agreement) (e : Eye) {s : State} (hs : s.portsSound)
    (ha : (s.eye e).state.attached = true) : (placeEqual cause a e s).portsSound := by
  unfold placeEqual
  (repeat' split)
  · exact writeDirective_portsSound e _ hs
  · exact hs
  · exact proposeEye_portsSound e a hs ha

theorem placeEqual_eye_other (cause : Option Eye) (a : Agreement) (e : Eye) (s : State) :
    (placeEqual cause a e s).eye e.other = s.eye e.other := by
  unfold placeEqual
  (repeat' split) <;> simp [writeDirective_eye, proposeEye_eye]

/-- A choice places two attached eyes. -/
theorem placeChoice_portsSound (cause : Option Eye) (outcome : Option Agreement) {s : State} (hs : s.portsSound)
    (ha : ∀ e, (s.eye e).state.attached = true) : (placeChoice cause outcome s).portsSound := by
  have hset : (setAgreement outcome s).portsSound := portsSound_of_eyes hs (by simp)
  cases outcome with
  | none =>
    refine portsSound_of_eyes (s := waitEye .right .held .noCommonMode (waitEye .left .held .noCommonMode
      (setAgreement none s))) ?_ (by simp [placeChoice])
    exact waitEye_portsSound .right _ _ (waitEye_portsSound .left _ _ hset (by simp [ha]) rfl) (by simp [waitEye_eye, ha]) rfl
  | some a =>
    rw [placeChoice_some]
    split
    · refine placeEqual_portsSound cause a .right (placeEqual_portsSound cause a .left hset (by simp [ha])) ?_
      rw [show Eye.right = Eye.left.other from rfl, placeEqual_eye_other]
      simp [ha]
    · exact proposeEye_portsSound .right a (proposeEye_portsSound .left a hset (by simp [ha])) (by simp [proposeEye_eye, ha])

theorem awaitPeer_portsSound (e : Eye) {s : State} (hs : s.portsSound) (ha : (s.eye e).state.attached = true) :
    (awaitPeer e s).portsSound :=
  waitEye_portsSound e _ _ (portsSound_of_eyes hs (by simp)) (by simpa using ha) rfl

/-- Eyes that hold CAPS are attached, so the choice places attached eyes alone. -/
theorem runChoice_portsSound (cause : Option Eye) {s : State} (hs : s.portsSound) : (runChoice cause s).portsSound := by
  unfold runChoice
  split
  · next l r hl hr =>
    refine placeChoice_portsSound cause _ hs fun e => EyePort.attached_of_caps (hs e) ?_
    cases e <;> simp [State.eye, hl, hr]
  · next c hl _ => exact awaitPeer_portsSound .left hs (EyePort.attached_of_caps (hs .left) (by simp [State.eye, hl]))
  · next c _ hr => exact awaitPeer_portsSound .right hs (EyePort.attached_of_caps (hs .right) (by simp [State.eye, hr]))
  · exact portsSound_of_eyes hs (by simp)

theorem rejoinTest_portsSound (e : Eye) (c : Caps) {s : State} (hs : s.portsSound) (ha : (s.eye e).state.attached = true) :
    (rejoinTest e c s).portsSound := by
  unfold rejoinTest
  (repeat' split)
  · exact waitEye_portsSound e _ _ hs ha rfl
  · exact waitEye_portsSound e _ _ hs ha rfl
  · exact proposeEye_portsSound e _ (portsSound_of_eyes hs (by simp)) (by simpa using ha)

theorem rejoinOut_portsSound (e : Eye) (c : Caps) {s : State} (hs : s.portsSound) (ha : (s.eye e).state.attached = true) :
    (rejoinOut e c s).portsSound ∧ ((rejoinOut e c s).eye e).state.attached = true := by
  have hcaps : (holdCaps e (some c) (clearExclusion s)).portsSound :=
    holdCaps_portsSound e _ (portsSound_of_eyes hs (by simp)) (by simp [ha])
  unfold rejoinOut
  split
  · refine ⟨testLoss_portsSound e (portsSound_of_eyes (setEyeState_portsSound e .held (departEye_portsSound e hcaps) ?_ rfl)
      (by simp)), ?_⟩
    · rw [departEye_attached]
      simp [holdCaps_eye, ha]
    · rw [leaveTake, testLoss_attached]
      simp [setEyeState_eye]
  · exact ⟨hcaps, by simp [holdCaps_eye, ha]⟩

theorem partnerWaits_portsSound (e : Eye) {s : State} (hs : s.portsSound) : (partnerWaits e s).portsSound := by
  unfold partnerWaits
  (repeat' split)
  · next hc => exact waitEye_portsSound e _ _ hs (EyePort.attached_of_caps (hs e) (Option.isSome_iff_ne_none.1 hc)) rfl
  · exact writeDirective_portsSound e _ hs
  · exact hs

theorem invalidOut_portsSound (e : Eye) {s : State} (hs : s.portsSound) (ha : (s.eye e).state.attached = true) :
    (invalidOut e s).portsSound := by
  have hout : (if (s.eye e).state.inTake then departEye e s else s).portsSound := by
    split
    · exact departEye_portsSound e hs
    · exact hs
  refine holdCaps_portsSound e _ (portsSound_of_eyes (waitEye_portsSound e .listening .badCaps hout ?_ rfl) (by simp)) (by simp)
  split
  · rw [departEye_attached, ha]
  · exact ha

theorem takeCaps_portsSound (e : Eye) (raw : RawCaps) {s : State} (hs : s.portsSound)
    (ha : (s.eye e).state.attached = true) : (takeCaps e raw s).portsSound := by
  have hout := invalidOut_portsSound e hs ha
  unfold takeCaps
  split
  · rw [invalidCaps_eq]
    (repeat' split)
    · exact partnerWaits_portsSound _ (portsSound_of_eyes hout (by simp))
    · exact testLoss_portsSound e (portsSound_of_eyes hout (by simp))
    · exact hout
  · next c _ =>
    split
    · have hrun := runChoice_portsSound (some e) (holdCaps_portsSound e (some c)
        (portsSound_of_eyes (t := clearExclusion s) hs (by simp)) (by simp [ha]))
      unfold validCapsSetup
      dsimp only
      split
      · exact portsSound_of_eyes hrun (by simp)
      · exact hrun
    · rw [validCapsTake_eq]
      obtain ⟨h, h'⟩ := rejoinOut_portsSound e c hs ha
      exact rejoinTest_portsSound e c h h'

theorem takeAccept_portsSound (e : Eye) (index : Byte) {s : State} (hs : s.portsSound) : (takeAccept e index s).portsSound := by
  unfold takeAccept
  split
  · next h =>
    exact writeDirective_portsSound e _ (setEyeState_portsSound e _ hs (by simp [(proposedIndex_eq_some h).1]) rfl)
  · exact countLost_portsSound e hs

theorem takeRefuse_portsSound (e : Eye) (index : Byte) {s : State} (hs : s.portsSound) : (takeRefuse e index s).portsSound := by
  unfold takeRefuse
  split
  · next h =>
    split
    · split
      · exact runChoice_portsSound none (portsSound_of_eyes hs (by simp))
      · exact hs
    · exact waitEye_portsSound e _ _ hs (by simp [(proposedIndex_eq_some h).1]) rfl
  · exact countLost_portsSound e hs

theorem matchFrame_portsSound (e : Eye) (f : RawFrame) {s : State} (hs : s.portsSound) : (matchFrame e f s).portsSound := by
  unfold matchFrame
  split
  · exact countLost_portsSound e hs
  · exact retire_portsSound (portsSound_of_eyes hs (by simp))

/-! ## Presence, marks and plans -/

theorem settleEye_portsSound (e : Eye) {s : State} (hs : s.portsSound) (h : (s.eye e).state = .settling) :
    (settleEye e s).portsSound := by
  intro e'
  simp only [settleEye, raise_eye, State.mapEye_eye, waitEye_eye, if_true]
  split
  · exact EyePort.settled_sound _ (hs e) h
  · exact hs e'

theorem advance_portsSound (n : Nat) {s : State} (hs : s.portsSound) : (advance n s).portsSound := fun e => by
  rw [advance_eye]
  exact EyePort.advance_sound n (hs e)

theorem ageWindow_portsSound {s : State} (hs : s.portsSound) : (ageWindow s).portsSound := fun e => by
  rw [ageWindow_port]
  split
  · exact hs e
  · exact EyePort.takeLost_sound (hs e)

theorem serveEye_portsSound (plan : Plan) (e : Eye) {s : State} (hs : s.portsSound) : (serveEye plan e s).portsSound := by
  have h : (writeDirective e (plan.run e) s).portsSound := writeDirective_portsSound e _ hs
  unfold serveEye
  dsimp only
  (repeat' split)
  · exact h
  · exact portsSound_of_eyes h (by simp)
  · exact hs

theorem completePlan_portsSound {s : State} (hs : s.portsSound) : (completePlan s).portsSound := by
  unfold completePlan
  split
  · exact hs
  · next p _ => exact portsSound_of_eyes (serveEye_portsSound p.plan .right (serveEye_portsSound p.plan .left hs)) (by simp)

theorem joinEye_portsSound (plan : Plan) (e : Eye) {s : State} (hs : s.portsSound) : (joinEye plan e s).portsSound := by
  unfold joinEye
  split
  · next h =>
    have ha : (s.eye e).state.attached = true := by
      simp only [Bool.and_eq_true, decide_eq_true_eq] at h
      simp [h.2]
    exact portsSound_of_eyes (setEyeState_portsSound e .running hs ha rfl) (by simp)
  · exact hs

theorem firePulse_portsSound (e : Eye) (p : Pulse) {s : State} (hs : s.portsSound) : (firePulse e p s).portsSound := fun e' => by
  rw [firePulse_eye]
  split
  · exact hs e
  · exact hs e'

theorem layPulse_portsSound (plan : Plan) (e : Eye) (number : MarkNumber) {s : State} (hs : s.portsSound) :
    (layPulse plan e number s).portsSound := by
  unfold layPulse
  dsimp only
  (repeat' split)
  · exact firePulse_portsSound e _ (portsSound_of_eyes hs (by simp))
  · exact portsSound_of_eyes hs (by simp)
  · exact hs

theorem rollMark_portsSound (m : Time) (plan : Plan) {s : State} (hs : s.portsSound) : (rollMark m plan s).portsSound := by
  have joined : (rollMarkJoined m plan s).portsSound :=
    joinEye_portsSound plan .right (joinEye_portsSound plan .left (ageWindow_portsSound (portsSound_of_eyes hs (by simp))))
  have opened : (rollMarkOpened m plan s).portsSound := retire_portsSound (portsSound_of_eyes joined (by simp))
  have laid : (rollMarkLaid m plan s).portsSound := layPulse_portsSound plan .right _ (layPulse_portsSound plan .left _ opened)
  rw [rollMark_eq]
  exact portsSound_of_eyes laid (by simp)

theorem rollingMarkEvent_portsSound (m : Time) {s : State} (hs : s.portsSound) : (rollingMarkEvent m s).portsSound := by
  have h : (completePlan (waitUntil m s)).portsSound := completePlan_portsSound (advance_portsSound _ hs)
  unfold rollingMarkEvent
  dsimp only
  split
  · exact h
  · exact rollMark_portsSound m _ h

theorem drainMarkEvent_portsSound (m : Time) {s : State} (hs : s.portsSound) : (drainMarkEvent m s).portsSound := by
  have h : (ageWindow ((waitUntil m s).mapCg (Cadence.drainMark m (waitUntil m s).timebase))).portsSound :=
    ageWindow_portsSound (portsSound_of_eyes (advance_portsSound (ticksUntil s.timebase m) hs) fun _ => rfl)
  unfold drainMarkEvent returnChoice
  dsimp only
  (repeat' split)
  · exact runChoice_portsSound none (portsSound_of_eyes h (by simp))
  · exact portsSound_of_eyes h (by simp)
  · exact h

/-! ## Transactions -/

theorem eyeStart_portsSound (e : Eye) (early : Nat) {s : State} (hs : s.portsSound) (hheld : s.isHeld = false) :
    (eyeStart e early s).portsSound := by
  unfold eyeStart
  split
  · exact hs
  · rw [if_neg (by simp [hheld])]
    exact mapEye_portsSound e _ hs (EyePort.start_sound early)

/-- Only an attached eye expects a report (R41). -/
theorem attached_of_expectedIn {st : EyeState} {empty : Bool} {r : Report} (h : expectedIn st empty r = true) :
    st.attached = true := by
  cases r <;> cases st <;> simp_all [expectedIn]

theorem placeReport_portsSound (e : Eye) (r : Option Report) {s : State} (hs : s.portsSound) :
    (placeReport e r s).portsSound := by
  unfold placeReport
  (repeat' split)
  · exact countLost_portsSound e hs
  · exact countLost_portsSound e hs
  · exact hs
  · exact countLost_portsSound e hs
  · next hexp _ _ =>
    exact mapEye_portsSound e _ hs fun h => EyePort.fillSlot_sound _ h (attached_of_expectedIn (by simpa using hexp))

theorem eyeEnd_portsSound (e : Eye) (n : Nat) (r : Option Report) {s : State} (hs : s.portsSound) (hheld : s.isHeld = false) :
    (eyeEnd e n r s).portsSound := by
  have h := eyeStart_portsSound e 0 hs hheld
  unfold eyeEnd
  dsimp only
  generalize eyeStart e 0 s = u at h
  have finish : ∀ g : EyePort → EyePort, ((u.eye e).sound → (g { u.eye e with txn := (u.eye e).txn.map (EyeTxn.clock n) }).sound) →
      ((u.mapEye e fun p => { p with txn := p.txn.map (EyeTxn.clock n) }).mapEye e g).portsSound := by
    intro g hg
    rw [mapEye_mapEye]
    exact mapEye_portsSound e _ h hg
  (repeat' split)
  · exact placeReport_portsSound e r (finish _ fun hp => EyePort.closed_sound (p := u.eye e) _ _ hp)
  · exact finish _ fun hp => EyePort.closed_sound (p := u.eye e) _ _ hp
  · exact finish _ fun hp => EyePort.closed_sound (p := u.eye e) _ _ hp

/-! ## Every move of a part that is not held -/

theorem decision_portsSound {s t : State} {r : Request} (hs : s.portsSound) (h : Decision s r t) : t.portsSound := by
  cases h with
  | profile p f => exact runChoice_portsSound none (portsSound_of_eyes hs (by simp))
  | cut => exact enterDraining_portsSound hs
  | enable eye action e => exact enablePort_portsSound e hs
  | disable eye action e => exact disablePort_portsSound e hs
  | _ => exact portsSound_of_eyes hs (by simp)

/-- A reset brings the part to its reset values, and a second one finds them there (R175). -/
theorem holdInReset_enforceReset (k : ResetKind) (s : State) : holdInReset (enforceReset k s) = enforceReset k s := by
  cases k <;> rfl

theorem holdInReset_eye (s : State) (e : Eye) :
    (holdInReset s).eye e = .atReset (s.eye e).pres (s.eye e).selLow (s.eye e).sent := by
  cases e <;> rfl

theorem enforceReset_portsSound (k : ResetKind) (s : State) : (enforceReset k s).portsSound := fun e => by
  rw [← holdInReset_enforceReset, holdInReset_eye]
  exact EyePort.atReset_sound _ _ _

theorem releasePart_portsSound {s : State} (hs : s.portsSound) : (releasePart s).portsSound := fun e => by
  rw [releasePart_eye]
  split
  · next hm => exact EyePort.settle_sound (hs e) hm
  · exact hs e

theorem endReset_portsSound (k : ResetKind) {s : State} (hs : s.portsSound) : (endReset k s).portsSound := by
  have h : ((advance (s.resets.remaining k) s).mapResets (Resets.lift k)).portsSound :=
    portsSound_of_eyes (advance_portsSound (s.resets.remaining k) hs) fun _ => rfl
  unfold endReset
  dsimp only
  (repeat' split)
  · exact h
  · exact releasePart_portsSound h
  · exact hs

theorem detachLeft_eq_some {p : EyePort} {n : Nat} (h : p.detachLeft = some n) :
    p.state.attached = true ∧ p.pres = false ∧ ∃ c, p.timer = .low c ∧ n = Config.detachTicks - c := by
  unfold EyePort.detachLeft at h
  split at h
  · next c h1 h2 h3 => exact ⟨h1, h3, c, h2, (Option.some.inj h).symm⟩
  · cases h

theorem Move.portsSound {c : Instr} {s t : State} (hs : s.portsSound) (hheld : s.isHeld = false) (h : Move s c t) :
    t.portsSound := by
  have taken : ∀ e, (emptySlot e s).portsSound := fun e => emptySlot_portsSound e hs
  cases h with
  | judged _ n v =>
    exact judged_keeps_of_decisions (P := State.portsSound) (fun _ _ h => h) (fun _ _ _ => decision_portsSound)
      (fun k s _ => enforceReset_portsSound k s) n v hs
  | eyeStart e early => exact eyeStart_portsSound e early hs hheld
  | eyeEnd _ e n r => exact eyeEnd_portsSound e n r hs hheld
  | capsTaken e raw h =>
    exact takeCaps_portsSound e raw (taken e)
      (by simpa [emptySlot_eye] using EyePort.attached_of_slot (hs e) (by simp [h]))
  | acceptTaken e index => exact takeAccept_portsSound e index (taken e)
  | refuseTaken e index => exact takeRefuse_portsSound e index (taken e)
  | frameTaken e f => exact matchFrame_portsSound e f (taken e)
  | presLevel _ e b hh => simp [hheld] at hh
  | presRise e _ hp => exact mapEye_portsSound e _ hs fun h => EyePort.rise_sound h hp
  | presFall e => exact mapEye_portsSound e _ hs EyePort.fall_sound
  | settled e n h => exact settleEye_portsSound e (advance_portsSound n hs) (by simp [(settleLeft_eq_some h).1])
  | detached e n =>
    have h := advance_portsSound n hs
    exact leaveAttached_portsSound e (h e.other) (h e).2.1
  | rollingMark m => exact rollingMarkEvent_portsSound m hs
  | planComplete => exact completePlan_portsSound hs
  | drainMark m => exact drainMarkEvent_portsSound m hs
  | leadMark m => exact portsSound_of_eyes (advance_portsSound (ticksUntil s.timebase m) hs) (by simp [leadMarkEvent])
  | setupMark m => exact portsSound_of_eyes (advance_portsSound (ticksUntil s.timebase m) hs) (by simp [setupMarkEvent])
  | windowClose w p =>
    refine portsSound_of_eyes (advance_portsSound (ticksUntil s.timebase (after w.mark w.half)) hs) fun e => ?_
    simp only [closeRefWindow]
    split <;> simp
  | pulse e p => exact firePulse_portsSound e p (advance_portsSound _ hs)
  | pulseEnd e t =>
    exact mapEye_portsSound e _ (advance_portsSound (ticksUntil s.timebase (after t Config.pulseTicks)) hs) fun h => h
  | saveComplete =>
    unfold completeSave
    split
    · exact hs
    · exact portsSound_of_eyes (advance_portsSound _ hs) fun _ => rfl
  | reset _ k => exact enforceReset_portsSound k s
  | release k => exact endReset_portsSound k hs
  | rcpStart early => exact portsSound_of_eyes hs fun _ => by simp [State.eye]
  | _ => exact portsSound_of_eyes hs (by simp)

end Sys2Proof.Machine
end

section
/-! PROOFS. The rig control port's transaction stays sound and a held part stays at its reset values (O54; R162, R175). -/

namespace Sys2Proof.Machine

/-! ## The rig control port -/

theorem RigPort.sound_of_txn {r : RigPort} (h : r.txn = none) : r.sound := by simp [RigPort.sound, h]

theorem State.raisedTo.rcp_sound {s t : State} (h : s.raisedTo t) (hs : s.rcp.sound) : t.rcp.sound := by
  rw [h.1]
  exact hs

theorem rcpStart_sound (early : Nat) {s : State} (hs : s.rcp.sound) : (rcpStart early s).rcp.sound := by
  unfold rcpStart
  split
  · exact hs
  · simp only [State.mapRcp_rcp]
    split
    · exact RigPort.sound_of_txn rfl
    · rintro t ht
      obtain rfl := Option.some.inj ht
      simp

/-- After its end a transaction has left no record. -/
theorem rcpEnd_sound (n : Nat) (v : Verdict) (s : State) : (rcpEnd n (actOn v) s).rcp.sound := by
  refine RigPort.sound_of_txn (judged_keeps (P := fun t => t.rcp.txn = none) n v (fun _ => rfl) (fun _ _ _ => rfl) fun l r => ?_)
  obtain ⟨t, kind, code, body, hd, h⟩ | ⟨-, h⟩ := decideRequest_cases r (s.rcpShut l)
  · rw [h]
    change t.rcp.txn = none
    obtain ht | ⟨mask, -, rfl⟩ := decision_raisedTo hd
    · rw [ht.1]
      rfl
    · rfl
  · rw [h]
    rfl

theorem Move.rcp_sound {c : Instr} {s t : State} (hs : s.rcp.sound) (h : Move s c t) : t.rcp.sound := by
  obtain h | ⟨early, rfl⟩ | ⟨n, v, -, rfl⟩ | ⟨k, rfl⟩ := h.rcp_cases
  · exact h.rcp_sound hs
  · exact rcpStart_sound early hs
  · exact rcpEnd_sound n v s
  · exact RigPort.sound_of_txn rfl

/-! ## A held part -/

/-- The part is at its reset values, block by block (R175, R176). -/
theorem holdInReset_eq_iff (s : State) :
    holdInReset s = s ↔
      s.timebase = 0 ∧ s.cg = .atReset ∧ (∀ e, s.eye e = .atReset (s.eye e).pres (s.eye e).selLow (s.eye e).sent) ∧
        s.ae = .atReset ∧ s.tp = .atReset ∧ s.lts = .atReset s.lts.nv ∧ s.lme = .atReset ∧ s.pe = .atReset ∧
        s.pq = .atReset s.pq.selLow s.pq.sent ∧ s.rcp = .atReset s.rcp.cause s.rcp.selLow s.rcp.sent := by
  constructor
  · intro h
    refine ⟨?_, ?_, fun e => ?_, ?_, ?_, ?_, ?_, ?_, ?_, ?_⟩
    case refine_3 => rw [← holdInReset_eye, h]
    all_goals conv_lhs => rw [← h]
    all_goals rfl
  · rintro ⟨h1, h2, h3, h4, h5, h6, h7, h8, h9, h10⟩
    have hl := h3 .left
    have hr := h3 .right
    obtain ⟨timebase, cg, ⟨left, right⟩, ae, tp, lts, lme, pe, pq, rcp, resets, pending⟩ := s
    simp only [State.eye, PerEye_left, PerEye_right] at hl hr
    dsimp only at h1 h2 h4 h5 h6 h7 h8 h9 h10
    rw [holdInReset]
    simp only [PerEye.map, State.mk.injEq, PerEye.mk.injEq]
    exact ⟨h1.symm, h2.symm, ⟨hl.symm, hr.symm⟩, h4.symm, h5.symm, h6.symm, h7.symm, h8.symm, h9.symm, h10.symm, trivial, trivial⟩

/-- The resets in force and the queue are no part of the reset values. -/
theorem atReset_others {s : State} (h : holdInReset s = s) (resets : Resets) (queue : List Instr) :
    holdInReset { s with resets := resets, pending := queue } = { s with resets := resets, pending := queue } :=
  congrArg (fun u : State => { u with resets := resets, pending := queue }) h

/-- A part at its reset values is sound, held or not. -/
theorem eyesSound_of_atReset {s : State} (h : holdInReset s = s) : s.eyesSound := by
  obtain ⟨-, -, heye, -, -, -, -, -, -, hrcp⟩ := (holdInReset_eq_iff s).1 h
  refine ⟨fun _ => h, ?_, fun e => ?_⟩
  · rw [hrcp]
    exact RigPort.sound_of_txn rfl
  · rw [heye e]
    exact EyePort.atReset_sound _ _ _

/-- The pins and the bits that go out on them are all that changes in a part at its reset values. -/
theorem atReset_congr {s t : State} (h : holdInReset s = s) (htime : t.timebase = s.timebase) (hcg : t.cg = s.cg)
    (heye : ∀ e, t.eye e = .atReset (t.eye e).pres (t.eye e).selLow (t.eye e).sent) (hae : t.ae = s.ae) (htp : t.tp = s.tp)
    (hlts : t.lts = s.lts) (hlme : t.lme = s.lme) (hpe : t.pe = s.pe) (hpq : t.pq = .atReset t.pq.selLow t.pq.sent)
    (hrcp : t.rcp = .atReset t.rcp.cause t.rcp.selLow t.rcp.sent) : holdInReset t = t := by
  obtain ⟨h1, h2, -, h4, h5, h6, h7, h8, -, -⟩ := (holdInReset_eq_iff s).1 h
  exact (holdInReset_eq_iff t).2 ⟨htime.trans h1, hcg.trans h2, heye, hae.trans h4, htp.trans h5, by rw [hlts, ← h6],
    hlme.trans h7, hpe.trans h8, hpq, hrcp⟩

theorem mapEye_atReset (e : Eye) (g : EyePort → EyePort) {s : State} (h : holdInReset s = s)
    (hg : ∀ pres selLow sent, ∃ pres' selLow' sent',
      g (.atReset pres selLow sent) = .atReset pres' selLow' sent') : holdInReset (s.mapEye e g) = s.mapEye e g := by
  obtain ⟨-, -, heye, -, -, -, -, -, hpq, hrcp⟩ := (holdInReset_eq_iff s).1 h
  refine atReset_congr h rfl rfl (fun e' => ?_) rfl rfl rfl rfl rfl hpq hrcp
  rw [State.mapEye_eye]
  split
  · obtain ⟨p, l, o, hp⟩ := hg (s.eye e).pres (s.eye e).selLow (s.eye e).sent
    rw [heye e, hp]
    rfl
  · exact heye e'

theorem mapRcp_atReset (g : RigPort → RigPort) {s : State} (h : holdInReset s = s)
    (hg : ∀ cause selLow sent, ∃ cause' selLow' sent',
      g (.atReset cause selLow sent) = .atReset cause' selLow' sent') : holdInReset (s.mapRcp g) = s.mapRcp g := by
  obtain ⟨-, -, heye, -, -, -, -, -, hpq, hrcp⟩ := (holdInReset_eq_iff s).1 h
  refine atReset_congr h rfl rfl heye rfl rfl rfl rfl rfl hpq ?_
  obtain ⟨c, l, o, hr⟩ := hg s.rcp.cause s.rcp.selLow s.rcp.sent
  rw [State.mapRcp_rcp, hrcp, hr]
  rfl

theorem mapPq_atReset (g : PairQueue → PairQueue) {s : State} (h : holdInReset s = s)
    (hg : ∀ selLow sent, ∃ selLow' sent', g (.atReset selLow sent) = .atReset selLow' sent') :
    holdInReset (s.mapPq g) = s.mapPq g := by
  obtain ⟨-, -, heye, -, -, -, -, -, hpq, hrcp⟩ := (holdInReset_eq_iff s).1 h
  refine atReset_congr h rfl rfl heye rfl rfl rfl rfl rfl ?_ hrcp
  obtain ⟨l, o, hq⟩ := hg s.pq.selLow s.pq.sent
  rw [State.mapPq_pq, hpq, hq]
  rfl

theorem advance_atReset (n : Nat) {s : State} (h : holdInReset s = s) (hheld : s.isHeld = true) :
    holdInReset (advance n s) = advance n s := by
  obtain ⟨-, -, heye, -, -, -, -, -, hpq, hrcp⟩ := (holdInReset_eq_iff s).1 h
  refine atReset_congr h (by simp [advance, hheld]) rfl (fun e => ?_) rfl rfl rfl rfl rfl hpq hrcp
  rw [advance_eye, heye e]
  simp [EyePort.advance, EyePort.atReset, PresenceTimer.advance]

theorem rcpStart_atReset (early : Nat) {s : State} (h : holdInReset s = s) (hheld : s.isHeld = true) :
    holdInReset (rcpStart early s) = rcpStart early s := by
  unfold rcpStart
  split
  · exact h
  · exact mapRcp_atReset _ h fun c l o => ⟨c, true, _, rfl⟩

theorem rcpEnd_atReset (n : Nat) (v : Verdict) {s : State} (h : holdInReset s = s) (hheld : s.isHeld = true) :
    holdInReset (rcpEnd n (actOn v) s) = rcpEnd n (actOn v) s := by
  obtain ⟨-, -, -, -, -, -, -, -, -, hrcp⟩ := (holdInReset_eq_iff s).1 h
  obtain ⟨sent, he | ⟨-, he⟩⟩ := rcpEnd_cases n (actOn v) s
  · rw [he]
    exact mapRcp_atReset (fun r => { r with selLow := false, txn := none, sent := sent }) h fun c l o => ⟨c, false, sent, rfl⟩
  · have hnone := he hheld
    rw [hrcp] at hnone
    simp [RigPort.atReset] at hnone

theorem eyeStart_atReset (e : Eye) (early : Nat) {s : State} (h : holdInReset s = s) (hheld : s.isHeld = true) :
    holdInReset (eyeStart e early s) = eyeStart e early s := by
  unfold eyeStart
  rw [if_pos hheld]
  split
  · exact h
  · exact mapEye_atReset e _ h fun p l o => ⟨p, true, _, rfl⟩

theorem eyeEnd_atReset (e : Eye) (n : Nat) (r : Option Report) {s : State} (h : holdInReset s = s)
    (hheld : s.isHeld = true) : holdInReset (eyeEnd e n r s) = eyeEnd e n r s := by
  have hu := eyeStart_atReset e 0 h hheld
  unfold eyeEnd
  dsimp only
  generalize eyeStart e 0 s = u at hu
  have hclock := mapEye_atReset e (fun p => { p with txn := p.txn.map (EyeTxn.clock n) }) hu
    fun p l o => ⟨p, l, o, rfl⟩
  obtain ⟨-, -, heye, -⟩ := (holdInReset_eq_iff _).1 hclock
  rw [heye e]
  exact mapEye_atReset e _ hclock fun p l o => ⟨p, false, _, rfl⟩

theorem pairStart_atReset (early : Nat) {s : State} (h : holdInReset s = s) (hheld : s.isHeld = true) :
    holdInReset (pairStart early s) = pairStart early s := by
  unfold pairStart
  split
  · exact h
  · exact mapPq_atReset _ h fun l o => ⟨true, _, rfl⟩

/-- The release of a reset: the part stays at its reset values while another is in force; with the last one its ports with
PRES high settle. -/
theorem endReset_eyesSound (k : ResetKind) {s : State} (h : s.eyesSound) : (endReset k s).eyesSound := by
  obtain ⟨hheld, hrcp, hports⟩ := h
  by_cases hk : s.resets.has k = true
  · have hin : s.isHeld = true := by
      cases k <;> simp_all [Resets.has, State.isHeld, Resets.inForce]
    have hadv := advance_atReset (s.resets.remaining k) (hheld hin) hin
    have hlift : ((advance (s.resets.remaining k) s).mapResets (Resets.lift k)).eyesSound := by
      exact eyesSound_of_atReset (atReset_others hadv _ _)
    unfold endReset
    rw [if_pos hk]
    dsimp only
    split
    · exact hlift
    · next hout =>
      exact ⟨fun hh => absurd hh hout, (raise_raisedTo .resetSeen _).rcp_sound hlift.2.1, releasePart_portsSound hlift.2.2⟩
  · unfold endReset
    rw [if_neg hk]
    exact ⟨hheld, hrcp, hports⟩

/-- What is at its reset values has nothing to do: no report, pulse, mark, plan or save is there. -/
theorem Move.eyesSound_of_held {c : Instr} {s t : State} (hs : s.eyesSound) (hheld : s.isHeld = true) (h : Move s c t) :
    t.eyesSound := by
  have hreset := hs.1 hheld
  obtain ⟨-, hcg, heye, -, htp, hlts, -, -, hpq, -⟩ := (holdInReset_eq_iff s).1 hreset
  have hslot : ∀ e, (s.eye e).slot = none := fun e => by rw [heye e]; rfl
  cases h with
  | nothing => exact hs
  | rcpStart early => exact eyesSound_of_atReset (rcpStart_atReset early hreset hheld)
  | judged _ n v => exact eyesSound_of_atReset (rcpEnd_atReset n v hreset hheld)
  | eyeStart e early => exact eyesSound_of_atReset (eyeStart_atReset e early hreset hheld)
  | eyeEnd _ e n r => exact eyesSound_of_atReset (eyeEnd_atReset e n r hreset hheld)
  | capsTaken e raw h => simp [hslot] at h
  | acceptTaken e index h => simp [hslot] at h
  | refuseTaken e index h => simp [hslot] at h
  | frameTaken e f h => simp [hslot] at h
  | presLevel _ e b => exact eyesSound_of_atReset (mapEye_atReset e _ hreset fun p l o => ⟨b, l, o, rfl⟩)
  | presRise e h => simp [hheld] at h
  | presFall e h => simp [hheld] at h
  | settled e n h =>
    have hstate := (settleLeft_eq_some h).1
    rw [heye e] at hstate
    cases hstate
  | detached e n h =>
    have hstate := (detachLeft_eq_some h).1
    rw [heye e] at hstate
    cases hstate
  | rollingMark m h => simp [State.dueMark, hheld] at h
  | drainMark m h => simp [State.dueMark, hheld] at h
  | leadMark m h => simp [State.dueMark, hheld] at h
  | setupMark m h => simp [State.dueMark, hheld] at h
  | planComplete =>
    rw [completePlan, htp]
    exact hs
  | refinEdge =>
    rw [refEdge_off s (by rw [hcg]; rfl)]
    exact hs
  | windowClose w p hw =>
    rw [hcg] at hw
    cases hw
  | pulse e p h =>
    rw [htp] at h
    simp [TriggerPlanner.atReset] at h
  | pulseEnd e t h =>
    rw [heye e] at h
    cases h
  | saveComplete =>
    rw [completeSave, hlts]
    exact hs
  | loadComplete =>
    rw [completeLoad, if_neg (by simp [hheld])]
    exact hs
  | pairStart early => exact eyesSound_of_atReset (pairStart_atReset early hreset hheld)
  | pairEnd n =>
    have hstart := pairStart_atReset 0 hreset hheld
    exact eyesSound_of_atReset (mapPq_atReset (PairQueue.finish n) hstart fun l o => ⟨false, _, rfl⟩)
  | reset _ k => exact eyesSound_of_atReset (holdInReset_enforceReset k s)
  | release k => exact endReset_eyesSound k hs

/-! ## A part that is not held -/

/-- Only a reset brings a part into the held state. -/
theorem Move.isHeld_cases {c : Instr} {s t : State} (hheld : s.isHeld = false) (h : Move s c t) :
    t.isHeld = false ∨ ∃ k u, t = enforceReset k u := by
  have kept : ∀ u : State, u.resets = s.resets → u.isHeld = false := fun u hu => by rw [State.isHeld_eq, hu]; exact hheld
  have waited : ∀ n, (advance n s).isHeld = false := fun n => by simpa using hheld
  have later : ∀ (n : Nat) (u : State), u.resets = (advance n s).resets → u.isHeld = false := fun n u hu => by
    rw [State.isHeld_eq, hu]
    exact waited n
  cases h with
  | judged _ n v =>
    obtain ⟨l, h | ⟨h, -⟩⟩ := rcpEnd_cases n (actOn v) s <;> rw [h]
    · exact .inl (kept _ rfl)
    · cases v with
      | request r =>
        obtain ⟨u, kind, code, body, hd, hr⟩ | ⟨-, hr⟩ := decideRequest_cases r (s.rcpShut l)
        · simp only [actOn, hr]
          refine .inl (kept _ ?_)
          cases hd <;> simp
        · exact .inr ⟨_, _, hr⟩
      | _ => exact .inl (kept _ rfl)
  | reset _ k => exact .inr ⟨k, s, rfl⟩
  | release k =>
    have hk : s.resets.has k = false := by
      cases k <;> simp_all [Resets.has, State.isHeld, Resets.inForce]
    rw [endReset, if_neg (by simp [hk])]
    exact .inl hheld
  | settled e n => exact .inl (later n _ (by simp))
  | detached e n => exact .inl (later n _ (by simp))
  | rollingMark m => exact .inl (later (ticksUntil s.timebase m) _ (by simp [rollingMarkEvent]; split <;> simp [waitUntil]))
  | drainMark m =>
    refine .inl (later (ticksUntil s.timebase m) _ ?_)
    unfold drainMarkEvent
    dsimp only
    split <;> simp [waitUntil]
  | leadMark m => exact .inl (later (ticksUntil s.timebase m) _ (by simp [leadMarkEvent, waitUntil]))
  | setupMark m => exact .inl (later (ticksUntil s.timebase m) _ (by simp [setupMarkEvent, waitUntil]))
  | windowClose w p =>
    refine .inl (later (ticksUntil s.timebase (after w.mark w.half)) _ ?_)
    unfold closeRefWindow
    dsimp only
    split <;> simp [waitUntil]
  | pulse e p => exact .inl (later (ticksUntil s.timebase p.time) _ (by simp [waitUntil]))
  | pulseEnd e t => exact .inl (later (ticksUntil s.timebase (after t Config.pulseTicks)) _ rfl)
  | saveComplete =>
    unfold completeSave
    split
    · exact .inl hheld
    · next r _ => exact .inl (later (ticksUntil s.timebase (after r.accepted Config.saveMinTicks)) _ rfl)
  | _ => exact .inl (kept _ (by simp))

theorem Move.eyesSound {c : Instr} {s t : State} (hs : s.eyesSound) (h : Move s c t) : t.eyesSound := by
  by_cases hheld : s.isHeld = true
  · exact h.eyesSound_of_held hs hheld
  · have hheld : s.isHeld = false := by simpa using hheld
    obtain hout | ⟨k, u, rfl⟩ := h.isHeld_cases hheld
    · exact ⟨fun hin => by simp [hout] at hin, h.rcp_sound hs.2.1, h.portsSound hs.2.2 hheld⟩
    · exact eyesSound_of_atReset (holdInReset_enforceReset k u)

theorem tick_eyesSound {s : State} (hs : s.eyesSound) : (tick s).eyesSound :=
  ⟨fun h => advance_atReset 1 (hs.1 (by simpa [tick] using h)) (by simpa [tick] using h), hs.2.1, advance_portsSound 1 hs.2.2⟩

/-- Settles O54: every move and a tick keep the ports sound and a held part at its reset values. -/
theorem eyePortsStaySound : Obligations.EyePortsStaySound := fun _ _ hs h =>
  step_keeps (P := State.eyesSound)
    (fun _ _ ⟨hheld, hrcp, hports⟩ => ⟨fun h => atReset_others (hheld h) _ _, hrcp, hports⟩)
    (fun _ => tick_eyesSound) (fun _ _ _ => Move.eyesSound) hs h

end Sys2Proof.Machine
end

section
/-! PROOFS. Records on the wire (O4, O5, O7): a record is read exactly from its bytes with anything after it, its fields are
written and read back, and the bodies of requests, reports and directives. -/

namespace Sys2Proof.Machine

/-! ## The record check and the frame -/

theorem crcBit_lt {c : Nat} (h : c < 65536) : crcBit c < 65536 := by
  unfold crcBit
  split
  · exact Nat.xor_lt_two_pow (n := 16) (Nat.mod_lt _ (by decide)) (by decide)
  · omega

theorem crcBits_lt (k : Nat) {c : Nat} (h : c < 65536) : crcBits k c < 65536 := by
  induction k generalizing c with
  | zero => exact h
  | succ k ih => exact ih (crcBit_lt h)

theorem crcByte_lt {c : Nat} (b : Byte) (h : c < 65536) : crcByte c b < 65536 := by
  have hb : b.toNat * 256 < 2 ^ 16 := by
    have := b.isLt
    omega
  have hx : c ^^^ b.toNat * 256 < 2 ^ 16 := Nat.xor_lt_two_pow h hb
  unfold crcByte
  exact crcBits_lt 8 hx

theorem crcFrom_nil (c : Nat) : crcFrom c [] = c := by
  rw [crcFrom.eq_def]

theorem crcFrom_cons (c : Nat) (b : Byte) (bs : List Byte) : crcFrom c (b :: bs) = crcFrom (crcByte c b) bs := by
  generalize h : crcFrom (crcByte c b) bs = x
  rw [crcFrom.eq_def]
  cases c with
  | zero => exact h
  | succ c => exact h

theorem crcFrom_lt (bytes : List Byte) {c : Nat} (h : c < 65536) : crcFrom c bytes < 65536 := by
  induction bytes generalizing c with
  | nil => rwa [crcFrom_nil]
  | cons b bs ih =>
    rw [crcFrom_cons]
    exact ih (crcByte_lt b h)

/-- The record check fits its two bytes. -/
theorem recordCheck_lt (bytes : List Byte) : recordCheck bytes < 65536 := crcFrom_lt bytes (by decide)

theorem fromBe_be_recordCheck (bytes : List Byte) : fromBe (be 2 (recordCheck bytes)) = recordCheck bytes := by
  rw [fromBe_be]
  exact Nat.mod_eq_of_lt (recordCheck_lt bytes)

/-- A record with anything after it passes the tests of R40 and R163, and no other bytes do. -/
theorem readFrame_eq_record_iff (bytes : List Byte) (kind : Byte) (body : List Byte) :
    readFrame bytes = .record kind body ↔ wholeRecord bytes kind body := by
  refine ⟨wholeRecord_of_readFrame, ?_⟩
  rintro ⟨hlen, padding, rfl⟩
  have hbyte : (BitVec.ofNat 8 body.length : Byte).toNat = body.length := by
    rw [BitVec.toNat_ofNat]
    omega
  have htake : (body ++ (be 2 (recordCheck (kind :: BitVec.ofNat 8 body.length :: body)) ++ padding)).take body.length = body :=
    List.take_left
  have hdrop : (body ++ (be 2 (recordCheck (kind :: BitVec.ofNat 8 body.length :: body)) ++ padding)).drop body.length =
      be 2 (recordCheck (kind :: BitVec.ofNat 8 body.length :: body)) ++ padding := List.drop_left
  have hcheck : (be 2 (recordCheck (kind :: BitVec.ofNat 8 body.length :: body)) ++ padding).take 2 =
      be 2 (recordCheck (kind :: BitVec.ofNat 8 body.length :: body)) := List.take_left' (be_length 2 _)
  simp only [frameRecord, withCheck, List.cons_append, List.append_assoc, readFrame, hbyte]
  rw [if_neg (by simp only [List.length_append, be_length]; omega), htake, hdrop, hcheck, fromBe_be_recordCheck, if_pos rfl]

theorem readFrame_frameRecord (kind : Byte) {body : List Byte} (h : body.length ≤ 250) :
    readFrame (frameRecord kind body) = .record kind body :=
  (readFrame_eq_record_iff _ _ _).2 ⟨h, [], (List.append_nil _).symm⟩

/-! ## Numbers of two, four and six bytes -/

@[simp] theorem byteAt_cons_zero (b : Byte) (l : List Byte) : byteAt (b :: l) 0 = b := rfl

@[simp] theorem byteAt_cons_succ (b : Byte) (l : List Byte) (n : Nat) : byteAt (b :: l) (n + 1) = byteAt l n := rfl

@[simp] theorem field_cons_succ (b : Byte) (l : List Byte) (n k : Nat) : field (b :: l) (n + 1) k = field l n k := rfl

/-- A byte is read as a field of one byte. -/
@[simp] theorem field_cons_zero_one (b : Byte) (l : List Byte) : field (b :: l) 0 1 = b.toNat := by
  simp [field, fromBe]

theorem field_append_skip (before rest : List Byte) (n k : Nat) :
    field (before ++ rest) (n + before.length) k = field rest n k := by
  rw [field, field, Nat.add_comm, List.drop_length_add_append]

theorem byteAt_append_skip (before rest : List Byte) (n : Nat) :
    byteAt (before ++ rest) (n + before.length) = byteAt rest n := by
  rw [byteAt, byteAt, List.getD_append_right _ _ _ _ (Nat.le_add_left _ _), Nat.add_sub_cancel]

theorem field_be (k n : Nat) (rest : List Byte) : field (be k n ++ rest) 0 k = n % 256 ^ k := field_append [] rest k n

@[simp] theorem field_be_two (n : Nat) (rest : List Byte) : field (be 2 n ++ rest) 0 2 = n % 65536 := field_be 2 n rest

@[simp] theorem field_be_four (n : Nat) (rest : List Byte) : field (be 4 n ++ rest) 0 4 = n % 4294967296 := field_be 4 n rest

@[simp] theorem field_be_six (n : Nat) (rest : List Byte) : field (be 6 n ++ rest) 0 6 = n % 281474976710656 := field_be 6 n rest

@[simp] theorem field_be_two_end (n : Nat) : field (be 2 n) 0 2 = n % 65536 := by
  simpa using field_be_two n []

@[simp] theorem field_be_four_end (n : Nat) : field (be 4 n) 0 4 = n % 4294967296 := by
  simpa using field_be_four n []

@[simp] theorem field_be_two_skip (n o k : Nat) (rest : List Byte) : field (be 2 n ++ rest) (o + 2) k = field rest o k :=
  field_append_skip (be 2 n) rest o k

@[simp] theorem field_be_four_skip (n o k : Nat) (rest : List Byte) : field (be 4 n ++ rest) (o + 4) k = field rest o k :=
  field_append_skip (be 4 n) rest o k

@[simp] theorem field_be_six_skip (n o k : Nat) (rest : List Byte) : field (be 6 n ++ rest) (o + 6) k = field rest o k :=
  field_append_skip (be 6 n) rest o k

@[simp] theorem byteAt_be_two_skip (n o : Nat) (rest : List Byte) : byteAt (be 2 n ++ rest) (o + 2) = byteAt rest o :=
  byteAt_append_skip (be 2 n) rest o

@[simp] theorem byteAt_be_four_skip (n o : Nat) (rest : List Byte) : byteAt (be 4 n ++ rest) (o + 4) = byteAt rest o :=
  byteAt_append_skip (be 4 n) rest o

@[simp] theorem byteAt_be_six_skip (n o : Nat) (rest : List Byte) : byteAt (be 6 n ++ rest) (o + 6) = byteAt rest o :=
  byteAt_append_skip (be 6 n) rest o

/-- A 16-bit word is its number, and a 32-bit one likewise. -/
@[simp] theorem ofNat_toNat_mod_two (x : BitVec 16) : BitVec.ofNat 16 (x.toNat % 65536) = x := by
  rw [Nat.mod_eq_of_lt x.isLt, BitVec.ofNat_toNat, BitVec.setWidth_eq]

@[simp] theorem ofNat_toNat_mod_four (x : BitVec 32) : BitVec.ofNat 32 (x.toNat % 4294967296) = x := by
  rw [Nat.mod_eq_of_lt x.isLt, BitVec.ofNat_toNat, BitVec.setWidth_eq]

@[simp] theorem toNat_mod_two (x : BitVec 16) : x.toNat % 65536 = x.toNat := Nat.mod_eq_of_lt x.isLt

@[simp] theorem toNat_mod_four (x : BitVec 32) : x.toNat % 4294967296 = x.toNat := Nat.mod_eq_of_lt x.isLt

@[simp] theorem toNat_mod_six (x : BitVec 48) : x.toNat % 281474976710656 = x.toNat := Nat.mod_eq_of_lt x.isLt

theorem field_zero (l : List Byte) (k : Nat) : field l 0 k = fromBe (l.take k) := rfl

theorem fromBe_two_lt (a b : Byte) : fromBe [a, b] < 65536 := (fromBe_lt [a, b]).trans_eq (by norm_num)

theorem fromBe_four_lt (a b c d : Byte) : fromBe [a, b, c, d] < 4294967296 := (fromBe_lt [a, b, c, d]).trans_eq (by norm_num)

@[simp] theorem be_two_fromBe (a b : Byte) : be 2 (fromBe [a, b] % 65536) = [a, b] := by
  rw [Nat.mod_eq_of_lt (fromBe_two_lt a b)]
  exact be_fromBe [a, b]

@[simp] theorem be_four_fromBe (a b c d : Byte) : be 4 (fromBe [a, b, c, d] % 4294967296) = [a, b, c, d] := by
  rw [Nat.mod_eq_of_lt (fromBe_four_lt a b c d)]
  exact be_fromBe [a, b, c, d]

/-! ## Requests -/

theorem fixedBody_eq_request {kind : Byte} {n : Nat} {body : List Byte} {r r' : Request} :
    fixedBody kind n body r' = .request r ↔ body.length = n ∧ r' = r := by
  unfold fixedBody
  split <;> simp [*]

/-- The 21 bytes of a PROFILE body are those of the profile they are read as (R180). -/
theorem requestBody_readProfile {body : List Byte} (h : body.length = 21) :
    requestBody (.profile (readProfile body)) = body := by
  match body, h with
  | [a0, a1, a2, a3, a4, a5, a6, a7, a8, a9, a10, a11, a12, a13, a14, a15, a16, a17, a18, a19, a20], _ =>
    simp [requestBody, readProfile, field_zero]

/-- The bytes of a request's body are those of the request it is read as, and only framable requests are read. -/
theorem requestBody_of_requestOf {kind : Byte} {body : List Byte} {r : Request} (h : requestOf kind body = .request r) :
    requestKind r = kind ∧ requestBody r = body ∧ r.framable = true := by
  rw [requestOf] at h
  by_cases hk : kind = 0x61
  · rw [if_pos hk] at h
    obtain ⟨hl, rfl⟩ := fixedBody_eq_request.1 h
    exact ⟨hk.symm, requestBody_readProfile hl, rfl⟩
  rw [if_neg hk] at h
  by_cases hk : kind = 0x62
  · rw [if_pos hk] at h
    obtain ⟨hl, rfl⟩ := fixedBody_eq_request.1 h
    match body, hl with
    | [a], _ => exact ⟨hk.symm, rfl, rfl⟩
  rw [if_neg hk] at h
  by_cases hk : kind = 0x63
  · rw [if_pos hk] at h
    obtain ⟨hl, rfl⟩ := fixedBody_eq_request.1 h
    match body, hl with
    | [a, b, c, d, e, f], _ => exact ⟨hk.symm, by simp [requestBody, field_zero], rfl⟩
  rw [if_neg hk] at h
  by_cases hk : kind = 0x64
  · rw [if_pos hk] at h
    obtain ⟨hl, rfl⟩ := fixedBody_eq_request.1 h
    match body, hl with
    | [a, b, c, d, e], _ => exact ⟨hk.symm, by simp [requestBody, field_zero], rfl⟩
  rw [if_neg hk] at h
  by_cases hk : kind = 0x65
  · rw [if_pos hk] at h
    obtain ⟨hl, rfl⟩ := fixedBody_eq_request.1 h
    match body, hl with
    | [a, b, c, d, e, f, g], _ => exact ⟨hk.symm, by simp [requestBody, field_zero], rfl⟩
  rw [if_neg hk] at h
  by_cases hk : kind = 0x66
  · rw [if_pos hk] at h
    obtain ⟨hl, rfl⟩ := fixedBody_eq_request.1 h
    exact ⟨hk.symm, (List.length_eq_zero_iff.1 hl).symm, rfl⟩
  rw [if_neg hk] at h
  by_cases hk : kind = 0x67
  · rw [if_pos hk] at h
    obtain ⟨hl, rfl⟩ := fixedBody_eq_request.1 h
    exact ⟨hk.symm, (List.length_eq_zero_iff.1 hl).symm, rfl⟩
  rw [if_neg hk] at h
  by_cases hk : kind = 0x68
  · rw [if_pos hk] at h
    obtain ⟨hl, rfl⟩ := fixedBody_eq_request.1 h
    match body, hl with
    | [a, b], _ => exact ⟨hk.symm, rfl, rfl⟩
  rw [if_neg hk] at h
  by_cases hk : kind = 0x69
  · rw [if_pos hk] at h
    obtain ⟨hl, rfl⟩ := fixedBody_eq_request.1 h
    exact ⟨hk.symm, (List.length_eq_zero_iff.1 hl).symm, rfl⟩
  rw [if_neg hk] at h
  by_cases hk : kind = 0x6A
  · rw [if_pos hk] at h
    split at h
    · next hl =>
      obtain rfl := Verdict.request.inj h
      match body, hl with
      | a :: b :: rest, hl =>
        refine ⟨hk.symm, by simp [requestBody, field_zero], ?_⟩
        simp only [List.length_cons] at hl
        simp only [Request.framable, List.drop_succ_cons, List.drop_zero, decide_eq_true_eq]
        omega
    · cases h
  rw [if_neg hk] at h
  by_cases hk : kind = 0x6B
  · rw [if_pos hk] at h
    obtain ⟨hl, rfl⟩ := fixedBody_eq_request.1 h
    match body, hl with
    | [a], _ => exact ⟨hk.symm, rfl, rfl⟩
  rw [if_neg hk] at h
  by_cases hk : kind = 0x6C
  · rw [if_pos hk] at h
    obtain ⟨hl, rfl⟩ := fixedBody_eq_request.1 h
    match body, hl with
    | [a], _ => exact ⟨hk.symm, rfl, rfl⟩
  rw [if_neg hk] at h
  by_cases hk : kind = 0x6D
  · rw [if_pos hk] at h
    obtain ⟨hl, rfl⟩ := fixedBody_eq_request.1 h
    match body, hl with
    | [a], _ => exact ⟨hk.symm, rfl, rfl⟩
  rw [if_neg hk] at h
  by_cases hk : kind = 0x6E
  · rw [if_pos hk] at h
    obtain ⟨hl, rfl⟩ := fixedBody_eq_request.1 h
    match body, hl with
    | [a, b, c, d], _ => exact ⟨hk.symm, by simp [requestBody, field_zero], rfl⟩
  rw [if_neg hk] at h
  by_cases hk : kind = 0x6F
  · rw [if_pos hk] at h
    obtain ⟨hl, rfl⟩ := fixedBody_eq_request.1 h
    exact ⟨hk.symm, (List.length_eq_zero_iff.1 hl).symm, rfl⟩
  rw [if_neg hk] at h
  by_cases hk : kind = 0x70
  · rw [if_pos hk] at h
    obtain ⟨hl, rfl⟩ := fixedBody_eq_request.1 h
    match body, hl with
    | [a, b], _ => exact ⟨hk.symm, by simp [requestBody, field_zero], rfl⟩
  rw [if_neg hk] at h
  by_cases hk : kind = 0x71
  · rw [if_pos hk] at h
    obtain ⟨hl, rfl⟩ := fixedBody_eq_request.1 h
    exact ⟨hk.symm, (List.length_eq_zero_iff.1 hl).symm, rfl⟩
  rw [if_neg hk] at h
  cases h

/-- A framable request is read from its own kind and body. -/
theorem requestOf_requestBody {r : Request} (h : r.framable = true) : requestOf (requestKind r) (requestBody r) = .request r := by
  cases r with
  | profile p => simp [requestOf, requestKind, requestBody, fixedBody, readProfile]
  | rate target marks => simp [requestOf, requestKind, requestBody, fixedBody]
  | shutter mode value => simp [requestOf, requestKind, requestBody, fixedBody]
  | demand axes focus iris zoom => simp [requestOf, requestKind, requestBody, fixedBody]
  | stageWrite offset data =>
    simp only [Request.framable, decide_eq_true_eq] at h
    have hl : 3 ≤ 2 + data.length ∧ 2 + data.length ≤ 66 := by omega
    simp [requestOf, requestKind, requestBody, hl]
  | readSlot slot offset length => simp [requestOf, requestKind, requestBody, fixedBody]
  | clearNotices mask => simp [requestOf, requestKind, requestBody, fixedBody]
  | _ => rfl

theorem requestKind_ne_zero (r : Request) : requestKind r ≠ 0 := by cases r <;> simp [requestKind]

theorem requestBody_length_le {r : Request} (h : r.framable = true) : (requestBody r).length ≤ 250 := by
  cases r with
  | stageWrite offset data =>
    simp only [Request.framable, decide_eq_true_eq] at h
    simp only [requestBody, List.length_append, be_length]
    omega
  | _ => simp [requestBody]

/-- Bytes with a non-zero byte that are no whole record are FORMAT; others are judged by kind and body (R163). -/
theorem judgeTransaction_of_ne {bytes : List Byte} (h : ∃ b ∈ bytes, b ≠ 0) :
    judgeTransaction bytes =
      match readFrame bytes with
      | .bad => .format (byteAt bytes 0)
      | .record kind body => requestOf kind body :=
  if_neg (by simpa using h)

/-- Settles O4: the whole records are those that the frame test passes, and kind and body spell the request both ways. -/
theorem requestRecordsAreReadBack : Obligations.RequestRecordsAreReadBack := by
  intro bytes r
  constructor
  · intro h
    by_cases hz : ∃ b ∈ bytes, b ≠ 0
    · rw [judgeTransaction_of_ne hz] at h
      cases hf : readFrame bytes with
      | bad => simp [hf] at h
      | record kind body =>
        simp only [hf] at h
        obtain ⟨rfl, rfl, hr⟩ := requestBody_of_requestOf h
        exact ⟨hr, ((readFrame_eq_record_iff _ _ _).1 hf).2⟩
    · rw [judgeTransaction_zeros (by simpa using hz)] at h
      cases h
  · rintro ⟨hr, padding, rfl⟩
    have hf := (readFrame_eq_record_iff _ (requestKind r) _).2 ⟨requestBody_length_le hr, padding, rfl⟩
    rw [judgeTransaction_of_ne ⟨requestKind r, by simp [requestRecord, frameRecord, withCheck], requestKind_ne_zero r⟩]
    simp only [requestRecord, hf]
    exact requestOf_requestBody hr

/-! ## Reports -/

theorem offerBytes_length (o : RawOffer) : (offerBytes o).length = 19 := by simp [offerBytes]

/-- The 19 bytes of an offer are those of the offer they are read as (R178). -/
theorem offerBytes_readOffer {l : List Byte} (h : l.length = 19) : offerBytes (readOffer l) = l := by
  match l, h with
  | [a0, a1, a2, a3, a4, a5, a6, a7, a8, a9, a10, a11, a12, a13, a14, a15, a16, a17, a18], _ =>
    simp [offerBytes, readOffer, field_zero]

theorem readOffer_offerBytes (o : RawOffer) : readOffer (offerBytes o) = o := by simp [offerBytes, readOffer]

theorem readOffers_spec {k : Nat} {l : List Byte} (h : l.length = 19 * k) :
    (readOffers k l).length = k ∧ (readOffers k l).flatMap offerBytes = l := by
  induction k generalizing l with
  | zero => exact ⟨rfl, (List.length_eq_zero_iff.1 h).symm⟩
  | succ k ih =>
    have htake : (l.take 19).length = 19 := by rw [List.length_take]; omega
    obtain ⟨hlength, hbytes⟩ := ih (l := l.drop 19) (by rw [List.length_drop]; omega)
    rw [readOffers]
    exact ⟨by rw [List.length_cons, hlength],
      by rw [List.flatMap_cons, offerBytes_readOffer htake, hbytes, List.take_append_drop]⟩

theorem readOffers_flatMap (offers : List RawOffer) : readOffers offers.length (offers.flatMap offerBytes) = offers := by
  induction offers with
  | nil => rfl
  | cons o offers ih =>
    rw [List.length_cons, List.flatMap_cons, readOffers, List.take_left' (offerBytes_length o),
      List.drop_left' (offerBytes_length o), readOffer_offerBytes, ih]

theorem offers_length (offers : List RawOffer) : (offers.flatMap offerBytes).length = 19 * offers.length := by
  induction offers with
  | nil => rfl
  | cons o offers ih =>
    rw [List.flatMap_cons, List.length_append, offerBytes_length, ih, List.length_cons]
    omega

/-- The bytes of a CAPS body are those of the CAPS they are read as. -/
theorem reportBody_readCaps {body : List Byte} (h : 6 ≤ body.length ∧ body.length ≤ 234 ∧ (body.length - 6) % 19 = 0) :
    reportBody (.caps (readCaps body)) = body ∧ (readCaps body).offers.length ≤ 12 := by
  match body, h with
  | a0 :: a1 :: a2 :: a3 :: a4 :: a5 :: rest, h =>
    obtain ⟨hlength, hbytes⟩ := readOffers_spec (k := rest.length / 19) (l := rest) (by simp at h; omega)
    constructor
    · simp [reportBody, readCaps, field_zero, hbytes]
    · have hrest : rest.length + 1 + 1 + 1 + 1 + 1 + 1 - 6 = rest.length := by omega
      simp only [readCaps, List.length_cons, List.drop_succ_cons, List.drop_zero, hrest, hlength]
      simp only [List.length_cons] at h
      omega

/-- The bytes of a report's body are those of the report it is read as, and only framable reports are read. -/
theorem reportBody_of_reportOf {kind : Byte} {body : List Byte} {r : Report} (h : reportOf kind body = some r) :
    reportKind r = kind ∧ reportBody r = body ∧ r.framable = true := by
  rw [reportOf] at h
  by_cases hk : kind = 0x21
  · rw [if_pos hk] at h
    split_ifs at h with hl
    obtain rfl := Option.some.inj h
    obtain ⟨hbytes, hoffers⟩ := reportBody_readCaps hl
    exact ⟨hk.symm, hbytes, by simp [Report.framable, hoffers]⟩
  rw [if_neg hk] at h
  by_cases hk : kind = 0x22
  · rw [if_pos hk] at h
    split_ifs at h with hl
    obtain rfl := Option.some.inj h
    match body, hl with
    | [a], _ => exact ⟨hk.symm, rfl, rfl⟩
  rw [if_neg hk] at h
  by_cases hk : kind = 0x23
  · rw [if_pos hk] at h
    split_ifs at h with hl
    obtain rfl := Option.some.inj h
    match body, hl with
    | [a], _ => exact ⟨hk.symm, rfl, rfl⟩
  rw [if_neg hk] at h
  by_cases hk : kind = 0x24
  · rw [if_pos hk] at h
    split_ifs at h with hl
    obtain rfl := Option.some.inj h
    match body, hl with
    | [a0, a1, a2, a3, a4, a5, a6, a7, a8, a9, a10, a11, a12, a13], _ =>
      exact ⟨hk.symm, by simp [reportBody, readFrameBody, field_zero], rfl⟩
  rw [if_neg hk] at h
  by_cases hk : kind = 0x2F
  · rw [if_pos hk] at h
    split_ifs at h with hl
    obtain rfl := Option.some.inj h
    exact ⟨hk.symm, (List.length_eq_zero_iff.1 hl).symm, rfl⟩
  rw [if_neg hk] at h
  cases h

theorem reportBody_caps_length (c : RawCaps) : (reportBody (.caps c)).length = 6 + 19 * c.offers.length := by
  simp only [reportBody, List.length_append, List.length_cons, List.length_nil, be_length, offers_length]

theorem readCaps_reportBody (c : RawCaps) : readCaps (reportBody (.caps c)) = c := by
  have hcount : ((reportBody (.caps c)).length - 6) / 19 = c.offers.length := by
    rw [reportBody_caps_length]
    omega
  have hdrop : (reportBody (.caps c)).drop 6 = c.offers.flatMap offerBytes :=
    List.drop_left' (by simp only [List.length_append, List.length_cons, List.length_nil, be_length])
  rw [readCaps, hcount, hdrop, readOffers_flatMap]
  simp [reportBody]

/-- A framable report is read from its own kind and body. -/
theorem reportOf_reportBody {r : Report} (h : r.framable = true) : reportOf (reportKind r) (reportBody r) = some r := by
  cases r with
  | caps c =>
    simp only [Report.framable, decide_eq_true_eq] at h
    rw [reportKind, reportOf, if_pos rfl, readCaps_reportBody, reportBody_caps_length, if_pos (by omega)]
  | frame f => simp [reportOf, reportKind, reportBody, readFrameBody]
  | _ => rfl

theorem reportBody_length_le {r : Report} (h : r.framable = true) : (reportBody r).length ≤ 250 := by
  cases r with
  | caps c =>
    simp only [Report.framable, decide_eq_true_eq] at h
    rw [reportBody_caps_length]
    omega
  | _ => simp [reportBody]

/-- A framable report is what an eye port reads from its record. -/
theorem readReport_reportRecord {r : Report} (h : r.framable = true) (padding : List Byte) :
    readReport (reportRecord r ++ padding) = some r := by
  have hf := (readFrame_eq_record_iff _ (reportKind r) _).2 ⟨reportBody_length_le h, padding, rfl⟩
  simp only [readReport, reportRecord, hf]
  exact reportOf_reportBody h

/-- Settles O5: as O4, for the reports of an eye. -/
theorem reportRecordsAreReadBack : Obligations.ReportRecordsAreReadBack := by
  intro bytes r
  constructor
  · intro h
    rw [readReport] at h
    cases hf : readFrame bytes with
    | bad => simp [hf] at h
    | record kind body =>
      simp only [hf] at h
      obtain ⟨rfl, rfl, hr⟩ := reportBody_of_reportOf h
      exact ⟨hr, ((readFrame_eq_record_iff _ _ _).1 hf).2⟩
  · rintro ⟨hr, padding, rfl⟩
    exact readReport_reportRecord hr padding

/-! ## Directives -/

theorem controlByte_eq (fresh agree : Bool) :
    controlByte fresh agree false = if fresh then (if agree then 0xC0 else 0x80) else if agree then 0x40 else 0 := by
  cases fresh <;> cases agree <;> decide

theorem controlByte_run (fresh skipped : Bool) :
    controlByte fresh false skipped = (if fresh then 0x80 else 0) + (if skipped then 1 else 0) := by
  cases fresh <;> cases skipped <;> decide

theorem axisSet_axisByte (a : PerAxis Bool) : axisSet (axisByte a) = a ∧ axisSetDefined (axisByte a) = true := by
  obtain ⟨f, i, z⟩ := a
  cases f <;> cases i <;> cases z <;> decide

/-- Settles O7: each directive is a frame, and the fields of a RUN body stand where 10.3 says. -/
theorem directiveRecords : Obligations.DirectiveRecords := by
  refine ⟨fun fresh reason => ?_, fun fresh index reversed _ => ?_, fun fresh => ?_, fun fresh d => ?_⟩
  · rw [directiveRecord, readFrame_frameRecord _ (by simp), controlByte_eq]
    rfl
  · rw [directiveRecord, readFrame_frameRecord _ (by simp), controlByte_eq]
    rfl
  · rw [directiveRecord, readFrame_frameRecord _ (by simp), controlByte_eq]
    rfl
  · obtain ⟨hset, hdefined⟩ := axisSet_axisByte (d.targets.map Option.isSome)
    rw [directiveRecord]
    refine ⟨_, readFrame_frameRecord _ (by simp), ?_⟩
    simp [controlByte_run, hset, hdefined]

end Sys2Proof.Machine
end

section
/-! PROOFS. The 74 bytes of a pair record (O8) and the 124 bytes of a QUERY answer (O10). -/

namespace Sys2Proof.Machine

/-- A signed number of four bytes is read back modulo 2^32. -/
theorem field_beSigned_four (x : Int) (rest : List Byte) : (field (beSigned 4 x ++ rest) 0 4 : Int) = x % 2 ^ 32 := by
  have hx : 0 ≤ x % 2 ^ 32 := Int.emod_nonneg _ (by decide)
  have hlt : x % 2 ^ 32 < 2 ^ 32 := Int.emod_lt_of_pos _ (by decide)
  rw [beSigned, field_be_four, show ((256 ^ 4 : Nat) : Int) = 2 ^ 32 by norm_num]
  omega

@[simp] theorem field_beSigned_four_skip (x : Int) (o k : Nat) (rest : List Byte) :
    field (beSigned 4 x ++ rest) (o + 4) k = field rest o k := field_be_four_skip _ o k rest

@[simp] theorem byteAt_beSigned_four_skip (x : Int) (o : Nat) (rest : List Byte) :
    byteAt (beSigned 4 x ++ rest) (o + 4) = byteAt rest o := byteAt_be_four_skip _ o rest

@[simp] theorem beSigned_length (k : Nat) (x : Int) : (beSigned k x).length = k := be_length _ _

/-- The bytes of a pair record after its kind and its length byte. -/
def PairRecord.body (r : PairRecord) : List Byte :=
  [r.flagByte] ++ be 2 r.take.toNat ++ be 6 r.mark.toNat ++ be 6 r.time.toNat ++ be 4 r.period ++
    be 4 r.exposure ++ be 4 r.slip ++ be 4 r.predicted ++ beSigned 4 r.anchorSkew ++ be 4 r.worstSkew ++
    r.parts.left.bytes ++ r.parts.right.bytes ++ be 2 r.lens.focus.error ++ be 2 r.lens.iris.error ++
    be 2 r.lens.zoom.error ++ [lensIndications r.lens]

theorem PairRecord.bytes_eq (r : PairRecord) : r.bytes = r.kind.code :: 70 :: r.body := by
  simp only [PairRecord.bytes, PairRecord.body, List.cons_append, List.nil_append, List.append_assoc]

theorem PairRecord.body_length (r : PairRecord) : r.body.length = 70 := by
  simp [PairRecord.body, RecordPart.bytes]

/-- An accepted record is a framed record of its bytes. -/
theorem acceptRecord_bytes (owed : Bool) (r : PairRecord) :
    (acceptRecord owed r).bytes = frameRecord r.kind.code ({ r with precededByLoss := owed } : PairRecord).body := by
  simp only [acceptRecord, QueuedRecord.bytes, frameRecord, withCheck, PairRecord.bytes_eq, PairRecord.body_length,
    List.cons_append]
  rfl

/-- The parts of a framed record: kind, length, body and check. -/
theorem frameRecord_parts (kind : Byte) (body : List Byte) :
    ∃ check, frameRecord kind body = kind :: BitVec.ofNat 8 body.length :: (body ++ be 2 check) :=
  ⟨recordCheck (kind :: BitVec.ofNat 8 body.length :: body), by simp only [frameRecord, withCheck, List.cons_append]⟩

/-- Settles O8: the record is framed, and each field stands at its offset of 10.5. -/
theorem pairRecordBytes : Obligations.PairRecordBytes := by
  refine ⟨fun owed r => ?_, ?_, ?_⟩
  · generalize hbytes : (acceptRecord owed r).bytes = b
    rw [acceptRecord_bytes] at hbytes
    dsimp only
    have hlen : ({ r with precededByLoss := owed } : PairRecord).body.length = 70 := PairRecord.body_length _
    obtain ⟨check, hparts⟩ := frameRecord_parts r.kind.code ({ r with precededByLoss := owed } : PairRecord).body
    have hframe : readFrame b = .record r.kind.code ({ r with precededByLoss := owed } : PairRecord).body := by
      rw [← hbytes]
      exact readFrame_frameRecord _ (by omega)
    have hb : b = r.kind.code :: 70 :: (({ r with precededByLoss := owed } : PairRecord).body ++ be 2 check) := by
      rw [← hbytes, hparts, hlen]
      rfl
    clear hbytes
    subst hb
    refine ⟨by simp [hlen], ?_, ?_, ?_, ?_, ?_, ?_, ?_, ?_, ?_, ?_, ?_, ?_, fun e => ?_, ?_, ?_, ?_, ?_, ?_⟩
    case refine_13 =>
      cases e
      · exact ⟨41, rfl, by simp [PairRecord.body, RecordPart.bytes, RecordPart.flagByte]⟩
      · exact ⟨53, rfl, by simp [PairRecord.body, RecordPart.bytes, RecordPart.flagByte]⟩
    case refine_18 =>
      rw [hframe]
      simp [hlen]
    all_goals simp [PairRecord.body, PairRecord.flagByte, RecordPart.bytes, lensIndications, field_beSigned_four]
  · exact readFrame_frameRecord _ (by simp)
  · simp [emptyRecord]

/-! ## The answer to QUERY -/

theorem field_zeros_skip (m n k : Nat) (rest : List Byte) : field (zeros m ++ rest) (n + m) k = field rest n k := by
  simpa using field_append_skip (zeros m) rest n k

theorem byteAt_zeros_skip (m n : Nat) (rest : List Byte) : byteAt (zeros m ++ rest) (n + m) = byteAt rest n := by
  simpa using byteAt_append_skip (zeros m) rest n

theorem perTick_eq (x : Nat) : perTick x = (2 * 10 ^ 11 + x) / (2 * x) := rfl

/-- The three bytes of an eye: the reason is shown in LISTENING and HELD alone (R180). -/
theorem queryEye_eq (p : EyePort) (r : WaitReason) :
    queryEye p r = [p.state.code, if p.enabled then 1 else 0,
      if p.state = .listening ∨ p.state = .held then r.code else 0] := by
  unfold queryEye
  cases p.state <;> rfl

theorem querySlot_identity (l : LensSlot) :
    ((l.contents.map fun c => c.table.identity.toNat).getD 0) = (l.identity.map BitVec.toNat).getD 0 := by
  cases h : l.contents <;> simp [LensSlot.identity, h]

theorem querySlot_identity_lt (l : LensSlot) : (l.identity.map BitVec.toNat).getD 0 < 4294967296 := by
  cases h : l.identity with
  | none => simp
  | some x => simpa using x.isLt

@[simp] theorem rcpClosed_queryBody (s : State) (n : Nat) : (s.rcpClosed n).queryBody = s.queryBody := rfl

theorem exec_query_done (pad : Nat) (s : State) (h : s.rcpServes) :
    exec (.query pad) s = .next { s with rcp := s.rcpAnswered (requestBits .query pad) 0x6F .done s.queryBody } := by
  rw [exec_query_serves pad s h, decideQuery, rcpClosed_queryBody, respond_rcpClosed]

/-- The bytes of the answer before the agreement, and after it. -/
def State.queryHead (s : State) : List Byte :=
  [s.cg.rig.code, s.cg.source.code, s.cg.ref.code] ++ be 2 s.cg.take.toNat ++ [flagByte s.cg.lastMark.isSome] ++
    be 6 ((s.cg.lastMark.map fun m => m.1.toNat).getD 0) ++ be 4 s.cg.effectiveRate ++
    queryEye s.eyes.left s.ae.reason.left ++ queryEye s.eyes.right s.ae.reason.right

def State.queryTail (s : State) : List Byte :=
  be 4 s.ae.ceiling ++ be 4 s.ae.floor ++ [s.tp.shutterMode.code] ++
    be 4 s.tp.shutterValue ++ s.lts.slots.flatMap querySlot ++
    [s.lts.store.code, BitVec.ofNat 8 s.pq.queue.length, 0, s.rcp.notices,
      bits [s.rcp.cause.power, s.rcp.cause.pin, s.rcp.cause.request]]

theorem State.queryBody_eq (s : State) : s.queryBody = s.queryHead ++ (queryAgreement s.ae.agreement ++ s.queryTail) := by
  simp only [State.queryBody, State.queryHead, State.queryTail, List.append_assoc]

theorem State.queryHead_length (s : State) : s.queryHead.length = 22 := by
  simp [State.queryHead, queryEye_eq]

theorem queryAgreement_length (a : Option Agreement) : (queryAgreement a).length = 44 := by
  cases a <;> simp [queryAgreement, queryMode]

theorem querySlot_length (l : LensSlot) : (querySlot l).length = 5 := by simp [querySlot]

theorem querySlots_length (l : List LensSlot) : (l.flatMap querySlot).length = 5 * l.length := by
  induction l with
  | nil => rfl
  | cons x l ih =>
    rw [List.flatMap_cons, List.length_append, querySlot_length, ih, List.length_cons]
    omega

theorem State.queryTail_length (s : State) (h : s.lts.slots.length = 8) : s.queryTail.length = 58 := by
  simp only [State.queryTail, List.length_append, querySlots_length, h, be_length, List.length_cons, List.length_nil]

/-- The bytes of slot `k` among those of the slots. -/
theorem querySlots_at {l : List LensSlot} {k : Nat} (h : k < l.length) (rest : List Byte) :
    byteAt (l.flatMap querySlot ++ rest) (5 * k) = byteAt (querySlot (l.getD k ⟨none, none, false⟩)) 0 ∧
      field (l.flatMap querySlot ++ rest) (5 * k + 1) 4 = field (querySlot (l.getD k ⟨none, none, false⟩)) 1 4 := by
  induction l generalizing k with
  | nil => simp at h
  | cons x l ih =>
    rw [List.flatMap_cons, List.append_assoc]
    cases k with
    | zero => simp [querySlot]
    | succ k =>
      obtain ⟨hbyte, hfield⟩ := ih (k := k) (by simpa using h)
      have h1 := byteAt_append_skip (querySlot x) (l.flatMap querySlot ++ rest) (5 * k)
      have h2 := field_append_skip (querySlot x) (l.flatMap querySlot ++ rest) (5 * k + 1) 4
      rw [querySlot_length] at h1 h2
      rw [show 5 * (k + 1) = 5 * k + 5 by ring, h1, show 5 * k + 5 + 1 = 5 * k + 1 + 5 by ring, h2, hbyte, hfield]
      exact ⟨rfl, rfl⟩

/-- The five bytes at the end of the answer. -/
def State.queryEnd (s : State) : List Byte :=
  [s.lts.store.code, BitVec.ofNat 8 s.pq.queue.length, 0, s.rcp.notices,
    bits [s.rcp.cause.power, s.rcp.cause.pin, s.rcp.cause.request]]

theorem State.queryTail_end (s : State) (h : s.lts.slots.length = 8) (n k : Nat) :
    byteAt s.queryTail (n + 53) = byteAt s.queryEnd n ∧ field s.queryTail (n + 53) k = field s.queryEnd n k := by
  have hlen : (be 4 s.ae.ceiling ++ be 4 s.ae.floor ++ [s.tp.shutterMode.code] ++ be 4 s.tp.shutterValue ++
      s.lts.slots.flatMap querySlot).length = 53 := by
    simp only [List.length_append, querySlots_length, h, be_length, List.length_cons, List.length_nil]
  rw [← hlen]
  exact ⟨byteAt_append_skip _ s.queryEnd n, field_append_skip _ s.queryEnd n k⟩

/-- Settles O10: the answer is the head, the agreement and the tail of 22, 44 and 58 bytes, and each item is read in its
part. -/
theorem queryAnswers : Obligations.QueryAnswers := by
  intro s pad hserves hslots
  refine ⟨s.queryBody, exec_query_done pad s hserves, ?_⟩
  generalize hb : s.queryBody = b
  rw [s.queryBody_eq] at hb
  have hlen : b.length = 124 := by
    rw [← hb, List.length_append, List.length_append, s.queryHead_length, queryAgreement_length, s.queryTail_length hslots]
  have agreeByte : ∀ n, byteAt b (n + 22) = byteAt (queryAgreement s.ae.agreement ++ s.queryTail) n := fun n => by
    simpa [hb, s.queryHead_length] using byteAt_append_skip s.queryHead (queryAgreement s.ae.agreement ++ s.queryTail) n
  have agree : ∀ n k, field b (n + 22) k = field (queryAgreement s.ae.agreement ++ s.queryTail) n k := fun n k => by
    simpa [hb, s.queryHead_length] using field_append_skip s.queryHead (queryAgreement s.ae.agreement ++ s.queryTail) n k
  have tailByte : ∀ n, byteAt b (n + 66) = byteAt s.queryTail n := fun n => by
    rw [show n + 66 = n + 44 + 22 by ring, agreeByte]
    simpa [queryAgreement_length] using byteAt_append_skip (queryAgreement s.ae.agreement) s.queryTail n
  have tail : ∀ n k, field b (n + 66) k = field s.queryTail n k := fun n k => by
    rw [show n + 66 = n + 44 + 22 by ring, agree]
    simpa [queryAgreement_length] using field_append_skip (queryAgreement s.ae.agreement) s.queryTail n k
  have headByte : ∀ n, byteAt b n = byteAt (s.queryHead ++ (queryAgreement s.ae.agreement ++ s.queryTail)) n := fun n => by
    rw [hb]
  have head : ∀ n k, field b n k = field (s.queryHead ++ (queryAgreement s.ae.agreement ++ s.queryTail)) n k :=
    fun n k => by rw [hb]
  have ceiling : field b 66 4 = s.ae.ceiling % 2 ^ 32 := (tail 0 4).trans (by simp [State.queryTail])
  have floor : field b 70 4 = s.ae.floor % 2 ^ 32 := (tail 4 4).trans (by simp [State.queryTail])
  have ending := fun n k => s.queryTail_end hslots n k
  refine ⟨hlen, ?_, ?_, ?_, ?_, ?_, ?_, ?_, fun e => ?_, fun ha => ?_, fun a ha => ?_, ?_, ?_, fun k hk => ?_, ?_, ?_, ?_, ?_, ?_⟩
  · exact (headByte 0).trans (by simp [State.queryHead])
  · exact (headByte 1).trans (by simp [State.queryHead])
  · exact (headByte 2).trans (by simp [State.queryHead])
  · exact (head 3 2).trans (by simp [State.queryHead])
  · exact (headByte 5).trans (by simp [State.queryHead, flagByte])
  · refine (head 6 6).trans ?_
    cases h : s.cg.lastMark <;> simp [State.queryHead, h]
  · refine (head 12 4).trans ?_
    cases hsource : s.cg.source <;> cases hperiod : s.cg.period <;>
      simp [State.queryHead, Cadence.effectiveRate, hsource, hperiod, perTick_eq]
  · cases e
    · refine ⟨16, rfl, (headByte 16).trans ?_, (headByte 17).trans ?_, (headByte 18).trans ?_⟩ <;>
        simp [State.queryHead, queryEye_eq, State.eye] <;> rfl
    · refine ⟨19, rfl, (headByte 19).trans ?_, (headByte 20).trans ?_, (headByte 21).trans ?_⟩ <;>
        simp [State.queryHead, queryEye_eq, State.eye] <;> rfl
  · refine ⟨?_, by rw [ceiling]; simp [AgreementEngine.ceiling, ha, Config.freeCeiling], by
      rw [floor]; simp [AgreementEngine.floor, ha]⟩
    rw [← hb, ha, queryAgreement, List.extract_eq_take_drop, List.drop_left' s.queryHead_length,
      List.take_left' (zeros_length 44)]
    rfl
  · rw [ha] at agree agreeByte
    refine ⟨(agreeByte 0).trans (by simp [queryAgreement]), (agree 1 1).trans (by simp [queryAgreement]),
      (agree 2 1).trans (by simp [queryAgreement]), fun e => ?_, (agreeByte 39).trans (by simp [queryAgreement, queryMode]),
      (agree 40 4).trans (by simp [queryAgreement, queryMode]), by rw [ceiling]; simp [AgreementEngine.ceiling, ha], by
        rw [floor]; simp [AgreementEngine.floor, ha]⟩
    cases e
    · refine ⟨25, rfl, (agree 3 1).trans ?_, (agree 4 4).trans ?_, (agreeByte 8).trans ?_, (agree 9 4).trans ?_,
        (agree 13 4).trans ?_, (agree 17 4).trans ?_⟩ <;> simp [queryAgreement, queryMode, flagByte]
      rfl
    · refine ⟨43, rfl, (agree 21 1).trans ?_, (agree 22 4).trans ?_, (agreeByte 26).trans ?_, (agree 27 4).trans ?_,
        (agree 31 4).trans ?_, (agree 35 4).trans ?_⟩ <;> simp [queryAgreement, queryMode, flagByte]
      rfl
  · exact (tailByte 8).trans (by simp [State.queryTail])
  · exact (tail 9 4).trans (by simp [State.queryTail])
  · obtain ⟨hbyte, hfield⟩ := querySlots_at (hslots ▸ hk : k < s.lts.slots.length)
      [s.lts.store.code, BitVec.ofNat 8 s.pq.queue.length, 0, s.rcp.notices,
        bits [s.rcp.cause.power, s.rcp.cause.pin, s.rcp.cause.request]]
    constructor
    · rw [show 79 + 5 * k = 5 * k + 4 + 1 + 4 + 4 + 66 by ring, tailByte]
      simp only [State.queryTail, List.append_assoc, byteAt_be_four_skip, List.cons_append, List.nil_append,
        byteAt_cons_succ, hbyte]
      rfl
    · rw [show 80 + 5 * k = 5 * k + 1 + 4 + 1 + 4 + 4 + 66 by ring, tail]
      simp only [State.queryTail, List.append_assoc, field_be_four_skip, List.cons_append, List.nil_append,
        field_cons_succ, hfield]
      have hlt := querySlot_identity_lt (s.lts.slot k)
      simp only [querySlot, querySlot_identity, List.cons_append, List.nil_append, field_cons_succ, field_be_four_end]
      exact Nat.mod_eq_of_lt hlt
  · exact (tailByte 53).trans (ending 0 0).1
  · exact (tail 54 1).trans ((ending 1 1).2.trans (by simp [State.queryEnd]))
  · exact (tailByte 55).trans (ending 2 0).1
  · exact (tailByte 56).trans (ending 3 0).1
  · exact (tailByte 57).trans (ending 4 0).1

end Sys2Proof.Machine
end

section
/-! PROOFS. A lens table is read exactly from its image (O6; R98, 10.6). -/

namespace Sys2Proof.Machine

/-- The four bytes of a point. -/
def pointBytes (p : Nat × Nat) : List Byte := be 2 p.1 ++ be 2 p.2

/-- The numbers of a point fit their two bytes. -/
def pointFits (p : Nat × Nat) : Prop := p.1 ≤ 65535 ∧ p.2 ≤ 65535

/-- An axis fits the fields of its block. -/
def AxisTable.fits (t : AxisTable) : Prop :=
  t.slew ≤ 65535 ∧ 2 ≤ t.points.length ∧ t.points.length ≤ 32 ∧ ∀ p ∈ t.points, pointFits p

/-- The bytes of an image before its check. -/
def LensTable.bytes (t : LensTable) : List Byte :=
  be 4 t.identity.toNat ++ [axisByte (t.axes.map Option.isSome)] ++ (t.axes.focus.map AxisTable.block).getD [] ++
    (t.axes.iris.map AxisTable.block).getD [] ++ (t.axes.zoom.map AxisTable.block).getD []

theorem LensTable.image_eq (t : LensTable) : t.image = t.bytes ++ be 2 (recordCheck t.bytes) := by
  simp only [LensTable.image, withCheck, LensTable.bytes]

theorem AxisTable.block_eq (t : AxisTable) :
    t.block = be 2 t.slew ++ [BitVec.ofNat 8 t.points.length] ++ t.points.flatMap pointBytes := rfl

/-- A point's bytes spell the point. -/
theorem pointBytes_fromBe (a b c d : Byte) : pointBytes (fromBe [a, b], fromBe [c, d]) = [a, b, c, d] := by
  rw [pointBytes, show be 2 (fromBe [a, b]) = [a, b] from be_fromBe [a, b],
    show be 2 (fromBe [c, d]) = [c, d] from be_fromBe [c, d]]
  rfl

theorem pointFits_fromBe (a b c d : Byte) : pointFits (fromBe [a, b], fromBe [c, d]) :=
  ⟨Nat.le_of_lt_succ (fromBe_two_lt a b), Nat.le_of_lt_succ (fromBe_two_lt c d)⟩

theorem readPoints_of_eq {n : Nat} {bytes more : List Byte} {points : List (Nat × Nat)}
    (h : readPoints n bytes = some (points, more)) :
    points.length = n ∧ (∀ p ∈ points, pointFits p) ∧ bytes = points.flatMap pointBytes ++ more := by
  induction n generalizing bytes points with
  | zero =>
    obtain ⟨rfl, rfl⟩ := Prod.mk.inj (Option.some.inj h)
    exact ⟨rfl, by simp, rfl⟩
  | succ n ih =>
    match bytes, h with
    | a :: b :: c :: d :: rest, h =>
      simp only [readPoints] at h
      split at h
      · next points' more' heq =>
        obtain ⟨rfl, rfl⟩ := Prod.mk.inj (Option.some.inj h)
        obtain ⟨hlength, hfits, rfl⟩ := ih heq
        refine ⟨by rw [List.length_cons, hlength], ?_, ?_⟩
        · simpa [pointFits_fromBe] using hfits
        · rw [List.flatMap_cons, pointBytes_fromBe]
          rfl
      · cases h

theorem readPoints_flatMap {points : List (Nat × Nat)} (h : ∀ p ∈ points, pointFits p) (more : List Byte) :
    readPoints points.length (points.flatMap pointBytes ++ more) = some (points, more) := by
  induction points with
  | nil => rfl
  | cons p points ih =>
    obtain ⟨x, y⟩ := p
    obtain ⟨hp, hrest⟩ := List.forall_mem_cons.1 h
    have hx : fromBe [BitVec.ofNat 8 (x / 256), BitVec.ofNat 8 x] = x := by
      rw [← be_two, fromBe_be, Nat.mod_eq_of_lt (by have := hp.1; norm_num; omega)]
    have hy : fromBe [BitVec.ofNat 8 (y / 256), BitVec.ofNat 8 y] = y := by
      rw [← be_two, fromBe_be, Nat.mod_eq_of_lt (by have := hp.2; norm_num; omega)]
    simp only [List.flatMap_cons, pointBytes, be_two, List.cons_append, List.nil_append, List.length_cons, readPoints,
      ih hrest, hx, hy]

/-- The block of an axis, or nothing for an axis that is not there. -/
def axisBytes (t : Option AxisTable) : List Byte := (t.map AxisTable.block).getD []

/-- An axis is read exactly from its block with anything after it. -/
theorem readAxis_eq_some_iff (present : Bool) (bytes : List Byte) (t : Option AxisTable) (more : List Byte) :
    readAxis present bytes = some (t, more) ↔
      t.isSome = present ∧ (∀ x, t = some x → x.fits) ∧ bytes = axisBytes t ++ more := by
  cases present with
  | false =>
    simp only [readAxis, Bool.false_eq_true, if_false, Option.some.injEq, Prod.mk.injEq]
    constructor
    · rintro ⟨rfl, rfl⟩
      exact ⟨rfl, by simp, rfl⟩
    · rintro ⟨ht, -, rfl⟩
      obtain rfl : t = none := by simpa using ht
      exact ⟨rfl, rfl⟩
  | true =>
    constructor
    · intro h
      rw [readAxis.eq_def, if_pos rfl] at h
      split at h
      · next s0 s1 n rest =>
        by_cases hn : 2 ≤ n.toNat ∧ n.toNat ≤ 32
        · rw [if_pos hn] at h
          split at h
          · next points more' heq =>
            obtain ⟨rfl, rfl⟩ := Prod.mk.inj (Option.some.inj h)
            obtain ⟨hlength, hfits, rfl⟩ := readPoints_of_eq heq
            refine ⟨rfl, ?_, ?_⟩
            · rintro x hx
              obtain rfl := Option.some.inj hx
              exact ⟨Nat.le_of_lt_succ (fromBe_two_lt s0 s1), by dsimp only; omega, by dsimp only; omega, hfits⟩
            · simp only [axisBytes, Option.map_some, Option.getD_some, AxisTable.block_eq, hlength, BitVec.ofNat_toNat,
                BitVec.setWidth_eq, show be 2 (fromBe [s0, s1]) = [s0, s1] from be_fromBe [s0, s1]]
              rfl
          · cases h
        · rw [if_neg hn] at h
          cases h
      · cases h
    · rintro ⟨ht, hfits, rfl⟩
      obtain ⟨x, rfl⟩ := Option.isSome_iff_exists.1 ht
      obtain ⟨hslew, h2, h32, hpoints⟩ := hfits x rfl
      have hcount : (BitVec.ofNat 8 x.points.length : Byte).toNat = x.points.length := by
        rw [BitVec.toNat_ofNat]
        omega
      have hfrom : fromBe [BitVec.ofNat 8 (x.slew / 256), BitVec.ofNat 8 x.slew] = x.slew := by
        rw [← be_two, fromBe_be, Nat.mod_eq_of_lt (by norm_num; omega)]
      simp only [axisBytes, Option.map_some, Option.getD_some, AxisTable.block_eq, be_two, List.cons_append,
        List.nil_append, List.append_assoc, readAxis, if_true, hcount, h2, h32, and_self, readPoints_flatMap hpoints, hfrom]

theorem axisByte_axisSet : ∀ a : Byte, axisSetDefined a = true → axisByte (axisSet a) = a := by
  decide

theorem axisByte_eq_zero_iff (a : PerAxis Bool) : axisByte a = 0 ↔ ∀ x, a.get x = false := by
  have h : ∀ f i z, axisByte ⟨f, i, z⟩ = 0 ↔ f = false ∧ i = false ∧ z = false := by decide
  obtain ⟨f, i, z⟩ := a
  rw [h]
  constructor
  · rintro ⟨rfl, rfl, rfl⟩ x
    cases x <;> rfl
  · exact fun h => ⟨h .focus, h .iris, h .zoom⟩

theorem LensTable.bytes_eq (t : LensTable) :
    t.bytes = be 4 t.identity.toNat ++ axisByte (t.axes.map Option.isSome) ::
      (axisBytes t.axes.focus ++ (axisBytes t.axes.iris ++ axisBytes t.axes.zoom)) := by
  simp only [LensTable.bytes, axisBytes, List.append_assoc, List.cons_append, List.nil_append]

/-- A table is read exactly from its bytes with anything after them. -/
theorem readTable_eq_some_iff (bytes : List Byte) (t : LensTable) (rest : List Byte) :
    readTable bytes = some (t, rest) ↔
      (∃ a, (t.axes.get a).isSome = true) ∧ (∀ a x, t.axes.get a = some x → x.fits) ∧ bytes = t.bytes ++ rest := by
  constructor
  · intro h
    rw [readTable.eq_def] at h
    split at h
    · next i0 i1 i2 i3 a tail =>
      split at h
      · next ha =>
        split at h
        · cases h
        next focus rest1 hfocus =>
        split at h
        · cases h
        next iris rest2 hiris =>
        split at h
        · cases h
        next zoom rest3 hzoom =>
        obtain ⟨rfl, rfl⟩ := Prod.mk.inj (Option.some.inj h)
        obtain ⟨hf, hffits, rfl⟩ := (readAxis_eq_some_iff _ _ _ _).1 hfocus
        obtain ⟨hi, hifits, rfl⟩ := (readAxis_eq_some_iff _ _ _ _).1 hiris
        obtain ⟨hz, hzfits, rfl⟩ := (readAxis_eq_some_iff _ _ _ _).1 hzoom
        have hset : axisSet a = PerAxis.map Option.isSome ⟨focus, iris, zoom⟩ := by
          simp only [PerAxis.map, hf, hi, hz]
        have hbyte : axisByte (PerAxis.map Option.isSome ⟨focus, iris, zoom⟩) = a := by
          rw [← hset, axisByte_axisSet a ha.1]
        refine ⟨?_, ?_, ?_⟩
        · by_contra hn
          refine ha.2 ?_
          rw [← hbyte, axisByte_eq_zero_iff]
          intro x
          rw [PerAxis_get_map]
          simpa using not_exists.1 hn x
        · rintro (_ | _ | _) x hx
          · exact hffits x hx
          · exact hifits x hx
          · exact hzfits x hx
        · simp only [LensTable.bytes_eq, hbyte, BitVec.toNat_ofNat, Nat.mod_eq_of_lt (fromBe_four_lt i0 i1 i2 i3),
            show be 4 (fromBe [i0, i1, i2, i3]) = [i0, i1, i2, i3] from be_fromBe [i0, i1, i2, i3], List.cons_append,
            List.nil_append, List.append_assoc]
      · cases h
    · cases h
  · rintro ⟨hsome, hfits, rfl⟩
    obtain ⟨hset, hdefined⟩ := axisSet_axisByte (t.axes.map Option.isSome)
    have hne : axisByte (t.axes.map Option.isSome) ≠ 0 := by
      intro hz
      obtain ⟨a, ha⟩ := hsome
      have := (axisByte_eq_zero_iff _).1 hz a
      rw [PerAxis_get_map] at this
      simp [this] at ha
    have hsetf : (axisSet (axisByte (t.axes.map Option.isSome))).focus = t.axes.focus.isSome := by rw [hset]; rfl
    have hseti : (axisSet (axisByte (t.axes.map Option.isSome))).iris = t.axes.iris.isSome := by rw [hset]; rfl
    have hsetz : (axisSet (axisByte (t.axes.map Option.isSome))).zoom = t.axes.zoom.isSome := by rw [hset]; rfl
    have hfocus := fun tail => (readAxis_eq_some_iff t.axes.focus.isSome _ t.axes.focus tail).2 ⟨rfl, hfits .focus, rfl⟩
    have hiris := fun tail => (readAxis_eq_some_iff t.axes.iris.isSome _ t.axes.iris tail).2 ⟨rfl, hfits .iris, rfl⟩
    have hzoom := fun tail => (readAxis_eq_some_iff t.axes.zoom.isSome _ t.axes.zoom tail).2 ⟨rfl, hfits .zoom, rfl⟩
    have hidentity : BitVec.ofNat 32 (fromBe (be 4 t.identity.toNat)) = t.identity := by
      rw [fromBe_be]
      exact ofNat_toNat_mod_four t.identity
    rw [be_four] at hidentity
    simp only [LensTable.bytes_eq, be_four, List.cons_append, List.nil_append, List.append_assoc, readTable, hdefined, hne,
      hsetf, hseti, hsetz, hfocus, hiris, hzoom, hidentity, and_self, ne_eq, not_false_eq_true, if_true]

/-! ## The image -/

theorem axisOk_iff (t : Option AxisTable) : axisOk t = true ↔ ∀ x, t = some x → x.wf = true := by
  cases t <;> simp [axisOk]

theorem AxisTable.fits_of_wf {t : AxisTable} (h : t.wf = true) (hp : ∀ p ∈ t.points, p.1 ≤ 65535 ∧ p.2 ≤ 65535) :
    t.fits := by
  simp only [AxisTable.wf, Bool.and_eq_true, decide_eq_true_eq] at h
  obtain ⟨⟨⟨-, hslew, h2, h32⟩, -⟩, -⟩ := h
  exact ⟨hslew, h2, h32, hp⟩

/-- A sound table is one that fits its bytes and whose axes are well formed. -/
theorem LensTable.sound_iff (t : LensTable) :
    t.sound ↔ (∃ a, (t.axes.get a).isSome = true) ∧ (∀ a x, t.axes.get a = some x → x.fits) ∧
      axisOk t.axes.focus = true ∧ axisOk t.axes.iris = true ∧ axisOk t.axes.zoom = true := by
  simp only [axisOk_iff]
  constructor
  · rintro ⟨hsome, hall⟩
    exact ⟨hsome, fun a x hx => AxisTable.fits_of_wf (hall a x hx).1 (hall a x hx).2, fun x hx => (hall .focus x hx).1,
      fun x hx => (hall .iris x hx).1, fun x hx => (hall .zoom x hx).1⟩
  · rintro ⟨hsome, hfits, hf, hi, hz⟩
    refine ⟨hsome, fun a x hx => ⟨?_, (hfits a x hx).2.2.2⟩⟩
    cases a
    · exact hf x hx
    · exact hi x hx
    · exact hz x hx

/-- Settles O6: the table is read back by its bytes, and the two bytes after them are their check. -/
theorem lensImagesAreReadBack : Obligations.LensImagesAreReadBack := by
  intro bytes c
  constructor
  · intro h
    rw [readImage] at h
    split at h
    · cases h
    · next t rest ht =>
      obtain ⟨hsome, hfits, rfl⟩ := (readTable_eq_some_iff _ _ _).1 ht
      have hspan : (t.bytes ++ rest).length - rest.length = t.bytes.length := by
        rw [List.length_append]
        omega
      simp only [hspan, List.take_left, List.take_length_add_append] at h
      split at h
      · next hok =>
        obtain ⟨hlen, hcheck, hf, hi, hz⟩ := hok
        obtain rfl := Option.some.inj h
        have himage : t.bytes ++ rest.take 2 = t.image := by
          have hwritten := be_fromBe (rest.take 2)
          rw [List.length_take, Nat.min_eq_left hlen, hcheck] at hwritten
          rw [LensTable.image_eq, hwritten]
        refine ⟨⟨(LensTable.sound_iff t).2 ⟨hsome, hfits, hf, hi, hz⟩, himage⟩, rest.drop 2, ?_⟩
        dsimp only
        rw [List.append_assoc, List.take_append_drop]
      · cases h
  · rintro ⟨⟨hsound, himage⟩, rest, rfl⟩
    obtain ⟨hsome, hfits, hf, hi, hz⟩ := (LensTable.sound_iff _).1 hsound
    have hbytes : c.image ++ rest = c.table.bytes ++ (be 2 (recordCheck c.table.bytes) ++ rest) := by
      rw [himage, LensTable.image_eq, List.append_assoc]
    have hread := (readTable_eq_some_iff (c.image ++ rest) c.table _).2 ⟨hsome, hfits, hbytes⟩
    have hspan : (c.image ++ rest).length - (be 2 (recordCheck c.table.bytes) ++ rest).length = c.table.bytes.length := by
      rw [hbytes, List.length_append]
      omega
    have htake : (be 2 (recordCheck c.table.bytes) ++ rest).take 2 = be 2 (recordCheck c.table.bytes) :=
      List.take_left' (be_length 2 _)
    simp only [readImage, hread, hspan]
    rw [hbytes, List.take_left, List.take_length_add_append, htake, fromBe_be_recordCheck,
      if_pos ⟨by rw [List.length_append, be_length]; omega, rfl, hf, hi, hz⟩, ← LensTable.image_eq, ← himage]

end Sys2Proof.Machine
end

section
/-! PROOFS. The transactions of the rig control port (O9) and the reads of the pair port (O15, O16). -/

namespace Sys2Proof.Machine

/-! ## What a port carries -/

theorem thenZeros_nil (n : Nat) : thenZeros [] n = List.replicate n false := by simp [thenZeros, padded]

theorem thenZeros_eq (out : List Bool) (n : Nat) :
    thenZeros out n = out.take n ++ List.replicate (n - out.length) false := rfl

theorem clockOut_nil (n : Nat) : clockOut [] n = List.replicate n false := by simp [clockOut, toBits, padded]

/-- A port between transactions whose SEL# has fallen has the next bit of its record on SDO. -/
theorem sdoLevel_clockOut (record : List Byte) (n : Nat) :
    sdoLevel true record (clockOut record n) = (toBits record).getD n false := by
  simp [sdoLevel]

/-! ## Requests of the rig controller -/

theorem requestOf_cases_of_fixedBody {kind : Byte} {n : Nat} {body : List Byte} {r : Request}
    (hlength : requestLengthAllowed kind body.length ↔ body.length = n) (hread : requestOf kind body = fixedBody kind n body r) :
    (requestLengthAllowed kind body.length ∧ ∃ r, requestOf kind body = .request r) ∨
      (¬ requestLengthAllowed kind body.length ∧ requestOf kind body = .format kind) := by
  rw [hlength, hread]
  unfold fixedBody
  split
  · next h => exact .inl ⟨h, r, rfl⟩
  · next h => exact .inr ⟨h, rfl⟩

/-- A whole record of a request's kind is that request where its length is allowed, and FORMAT otherwise (R163). -/
theorem requestOf_cases (kind : Byte) (body : List Byte) (h : 0x61 ≤ kind.toNat ∧ kind.toNat ≤ 0x71) :
    (requestLengthAllowed kind body.length ∧ ∃ r, requestOf kind body = .request r) ∨
      (¬ requestLengthAllowed kind body.length ∧ requestOf kind body = .format kind) := by
  obtain ⟨k, hk, hkind⟩ : ∃ k, k = kind.toNat ∧ kind = BitVec.ofNat 8 k := ⟨_, rfl, by simp⟩
  rw [← hk] at h
  obtain ⟨hlow, hhigh⟩ := h
  subst hkind
  by_cases hwrite : k = 0x6A
  · subst hwrite
    by_cases hl : 3 ≤ body.length ∧ body.length ≤ 66
    · exact .inl ⟨hl, _, if_pos hl⟩
    · exact .inr ⟨hl, if_neg hl⟩
  · rcases Nat.lt_or_gt_of_ne hwrite with hbelow | habove
    · interval_cases k
      all_goals exact requestOf_cases_of_fixedBody Iff.rfl rfl
    · interval_cases k
      all_goals exact requestOf_cases_of_fixedBody Iff.rfl rfl

/-- A kind outside the requests' is UNKNOWN (R163). -/
theorem requestOf_unknown (kind : Byte) (body : List Byte) (h : ¬ (0x61 ≤ kind.toNat ∧ kind.toNat ≤ 0x71)) :
    requestOf kind body = .unknown kind := by
  have hne : ∀ k : Byte, 0x61 ≤ k.toNat → k.toNat ≤ 0x71 → kind ≠ k := by
    rintro k h1 h2 rfl
    exact h ⟨h1, h2⟩
  unfold requestOf
  simp only [hne 0x61 (by decide) (by decide), hne 0x62 (by decide) (by decide), hne 0x63 (by decide) (by decide),
    hne 0x64 (by decide) (by decide), hne 0x65 (by decide) (by decide), hne 0x66 (by decide) (by decide),
    hne 0x67 (by decide) (by decide), hne 0x68 (by decide) (by decide), hne 0x69 (by decide) (by decide),
    hne 0x6A (by decide) (by decide), hne 0x6B (by decide) (by decide), hne 0x6C (by decide) (by decide),
    hne 0x6D (by decide) (by decide), hne 0x6E (by decide) (by decide), hne 0x6F (by decide) (by decide),
    hne 0x70 (by decide) (by decide), hne 0x71 (by decide) (by decide), if_false]

/-- A request's own command is its decision at the end of its transaction. -/
theorem exec_requestCommand {r : Request} {pad : Nat} {c : Instr} (h : requestCommand r pad = some c) (s : State) :
    exec c s = .next (rcpRequest r pad (decideRequest r) s) := by
  cases r with
  | port eye action =>
    simp only [requestCommand] at h
    by_cases h0 : action = 0
    · subst h0
      obtain rfl := Option.some.inj h
      rfl
    · rw [if_neg h0] at h
      by_cases h1 : action = 1
      · subst h1
        obtain rfl := Option.some.inj h
        rfl
      · rw [if_neg h1] at h
        cases h
  | _ =>
    obtain rfl := Option.some.inj h
    rfl

/-- The one request without a command of its own, a PORT with an action that is neither 0 nor 1, is RANGE. -/
theorem decideRequest_of_no_command {r : Request} {pad : Nat} (h : requestCommand r pad = none) (s : State) :
    decideRequest r s = answer (requestKind r) .range s := by
  cases r with
  | port eye action =>
    simp only [requestCommand] at h
    split_ifs at h with h0 h1
    have hnone : yesNo action = none := by rw [yesNo, if_neg h0, if_neg h1]
    simp only [decideRequest, decidePort, hnone]
    cases eyeCode eye <;> rfl
  | _ => cases h

/-! ## Judged transactions -/

theorem rcpClosed_eq (s : State) (n : Nat) :
    s.rcpClosed n = { s with rcp := { s.rcp with
      selLow := false, txn := none, sent := clockOut (responseRecord s.latchedResponse) n } } := rfl

theorem exec_collection_serves (count : Nat) (s : State) (h : s.rcpServes) :
    exec (.collection count) s = .next (s.rcpClosed count) := by
  change Host.Outcome.next (rcpBits (List.replicate count false) s) = _
  rw [rcpBits, rcpEnd_serves _ _ _ h, judgeTransaction_collection, List.length_replicate]
  rfl

/-- Bits with a non-zero byte are judged by the record they spell. -/
theorem exec_rcpRecordRefused_frame {bits : List Bool} {s : State} (h : s.rcpServes) (hne : ∃ b ∈ wholeBytes bits, b ≠ 0) :
    (∀ kind body, wholeRecord (wholeBytes bits) kind body →
      exec (.rcpRecordRefused bits) s = .next (actOn (requestOf kind body) (s.rcpClosed bits.length))) ∧
    ((¬ ∃ kind body, wholeRecord (wholeBytes bits) kind body) →
      exec (.rcpRecordRefused bits) s = .next
        { s with rcp := s.rcpAnswered bits.length (byteAt (wholeBytes bits) 0) .format [] }) := by
  rw [exec_rcpRecordRefused_serves bits s h, judgeTransaction_of_ne hne]
  constructor
  · intro kind body hw
    rw [(readFrame_eq_record_iff _ _ _).2 hw]
  · intro hn
    cases hf : readFrame (wholeBytes bits) with
    | bad => rfl
    | record kind body => exact absurd ⟨kind, body, (readFrame_eq_record_iff _ _ _).1 hf⟩ hn

/-- The bits of a whole record and of whatever follows it. -/
theorem wholeRecord_bits {bits : List Bool} {kind : Byte} {body : List Byte} (h : wholeRecord (wholeBytes bits) kind body) :
    8 * (body.length + 4) ≤ bits.length := by
  obtain ⟨-, padding, hp⟩ := h
  have hl := congrArg List.length hp
  rw [wholeBytes_length, List.length_append, frameRecord_length] at hl
  omega

/-- A transaction that is known by its bits, is a collection, or carries a request's command ends one transaction. -/
theorem exec_rcpEnd {c : Instr} {n : Nat}
    (h : (∃ bits, c = .rcpRecordRefused bits ∧ n = bits.length) ∨ c = .collection n ∨
      ∃ r pad, requestCommand r pad = some c ∧ n = requestBits r pad) (s : State) :
    ∃ d, exec c s = .next (rcpEnd n d s) := by
  obtain ⟨bits, rfl, rfl⟩ | rfl | ⟨r, pad, hr, rfl⟩ := h
  · exact ⟨_, rfl⟩
  · exact ⟨_, by
      change Host.Outcome.next (rcpBits (List.replicate n false) s) = _
      rw [rcpBits, List.length_replicate]⟩
  · exact ⟨_, by rw [exec_requestCommand hr, rcpRequest, requestRecord_bits]⟩

/-- A whole transaction of a held part is ignored and carries 0x00 (R166). -/
theorem rcpEnd_held (n : Nat) (d : State → State) (s : State) (h : s.rcp.selLow = false) (hheld : s.isHeld = true) :
    rcpEnd n d s =
      { s with rcp := { s.rcp with selLow := false, txn := none, sent := List.replicate n false } } := by
  simp [rcpEnd, rcpStart, h, hheld, State.mapRcp, thenZeros_nil]

theorem rcpStart_serves (early : Nat) (s : State) (h : s.rcp.selLow = false) (hheld : s.isHeld = false) :
    rcpStart early s = { s with rcp := { s.rcp with
      selLow := true, txn := some ⟨s.rcp.response, early / 8, early / 8⟩
      sent := clockOut (responseRecord s.rcp.response) early } } := by
  simp [rcpStart, h, hheld, State.mapRcp]

theorem rcpStart_held (early : Nat) (s : State) (h : s.rcp.selLow = false) (hheld : s.isHeld = true) :
    rcpStart early s = { s with rcp := { s.rcp with
      selLow := true, txn := none, sent := List.replicate early false } } := by
  simp [rcpStart, h, hheld, State.mapRcp, thenZeros_nil]

/-- Settles O9: a served transaction closes and is judged by its bytes; one that is not served decides nothing. -/
theorem rigControlTransactions : Obligations.RigControlTransactions := by
  refine ⟨fun s early hl => ⟨fun hheld => ?_, fun hheld => ?_, ?_⟩, fun s count hs => exec_collection_serves count s hs,
    fun s bits hs hz => ?_, fun s bits bytes hs hbytes hne hn => ?_, fun s bits kind body hs hne hw => ⟨fun hk => ?_,
      fun hk hlen => ?_, fun hk hlen => ?_⟩, fun s c n hc => ⟨fun hl ht => ?_, fun hl hheld => ?_⟩⟩
  · refine ⟨_, rfl, rcpStart_serves early s hl hheld, ?_⟩
    rw [rcpStart_serves early s hl hheld]
    exact sdoLevel_clockOut _ early
  · exact congrArg Host.Outcome.next (rcpStart_held early s hl hheld)
  · simp [RigPort.sdoHigh, hl]
  · rw [exec_collection_serves _ s hs, exec_rcpRecordRefused_serves bits s hs, judgeTransaction_zeros hz]
    rfl
  · subst hbytes
    exact (exec_rcpRecordRefused_frame hs hne).2 hn
  · rw [(exec_rcpRecordRefused_frame hs hne).1 kind body hw, requestOf_unknown kind body hk]
    rfl
  · obtain ⟨hin, -⟩ | ⟨-, hr⟩ := requestOf_cases kind body hk
    · exact absurd hin hlen
    · rw [(exec_rcpRecordRefused_frame hs hne).1 kind body hw, hr]
      rfl
  · obtain ⟨-, r, hr⟩ | ⟨hout, -⟩ := requestOf_cases kind body hk
    · obtain ⟨rfl, rfl, hframable⟩ := requestBody_of_requestOf hr
      have hbits : requestBits r (bits.length - 8 * ((requestBody r).length + 4)) = bits.length := by
        have := wholeRecord_bits hw
        rw [requestBits]
        omega
      refine ⟨r, rfl, rfl, fun c hc => ?_, fun pad hc => ?_⟩
      · rw [(exec_rcpRecordRefused_frame hs hne).1 _ _ hw, hr, exec_requestCommand hc, rcpRequest_framable _ _ _ _ hs hframable,
          hbits]
        rfl
      · rw [(exec_rcpRecordRefused_frame hs hne).1 _ _ hw, hr]
        change Host.Outcome.next (decideRequest r _) = _
        rw [decideRequest_of_no_command hc]
        rfl
    · exact absurd hlen hout
  · obtain ⟨d, hd⟩ := exec_rcpEnd hc s
    rw [hd, rcpEnd_ignored n d s hl ht]
    rfl
  · obtain ⟨d, hd⟩ := exec_rcpEnd hc s
    rw [hd, rcpEnd_held n d s hl hheld]

/-! ## The pair port -/

theorem latchedBytes_eq (q : Option QueuedRecord) :
    latchedBytes q = match q with | some r => r.bytes | none => emptyRecord := by
  cases q <;> rfl

/-- Settles O15: an offered record is appended below 64 records and dropped at 64. -/
theorem offeredRecordsQueueOrDrop : Obligations.OfferedRecordsQueueOrDrop := by
  intro r s
  constructor
  · intro h
    refine ⟨acceptRecord s.pq.precededByLoss r, by simp only [acceptRecord], by simp only [acceptRecord], ?_⟩
    have hroom : s.pq.queue.length < Config.queueDepth := h
    rw [offer, if_pos hroom]
    simp only [State.mapPq]
  · intro h
    have hfull : ¬ s.pq.queue.length < Config.queueDepth := Nat.not_lt.2 h
    refine ⟨_, rfl, ?_, fun n => ?_⟩
    · rw [offer, if_neg hfull]
      rfl
    · rw [offer, if_neg hfull]
      exact hasNotice_addNotice _ _ _

theorem pairStart_serves (early : Nat) (s : State) (h : s.pq.selLow = false) (hheld : s.isHeld = false) :
    pairStart early s = { s with pq := { s.pq with
      selLow := true, read := some ⟨s.pq.queue.head?, early / 8⟩
      sent := clockOut (latchedBytes s.pq.queue.head?) early } } := by
  simp only [pairStart, h, hheld, Bool.false_eq_true, if_false, State.mapPq]

theorem pairStart_held (early : Nat) (s : State) (h : s.pq.selLow = false) (hheld : s.isHeld = true) :
    pairStart early s = { s with pq := { s.pq with
      selLow := true, read := none, sent := List.replicate early false } } := by
  simp only [pairStart, h, hheld, Bool.false_eq_true, if_false, if_true, State.mapPq, thenZeros_nil]

/-- The end of a read that latched a record, or the EMPTY record. -/
theorem pairEnd_latched (n k : Nat) (latched : Option QueuedRecord) (s : State) (h : s.pq.selLow = true)
    (hread : s.pq.read = some ⟨latched, k⟩) :
    pairEnd n s = { s with pq := { s.pq with
      selLow := false, read := none, sent := clockOut (latchedBytes latched) n
      queue := if latched.isSome ∧ 74 ≤ n / 8 then s.pq.queue.tail else s.pq.queue } } := by
  simp only [pairEnd, pairStart, h, if_true, State.mapPq, PairQueue.finish, hread, afterRead, Config.pairRecordBytes]

/-- A whole read on a falling edge is that edge and then its end. -/
theorem pairEnd_start (n : Nat) (s : State) : pairEnd n s = pairEnd n (pairStart 0 s) := by
  have hlow : (pairStart 0 s).pq.selLow = true := by
    unfold pairStart
    split
    · assumption
    · simp only [State.mapPq_pq]
      split <;> rfl
  have htwice : pairStart 0 (pairStart 0 s) = pairStart 0 s := by
    conv_lhs => rw [pairStart, if_pos hlow]
  rw [pairEnd, pairEnd, htwice]

/-- Settles O16: the falling edge latches the head, the rising edge removes it after all its bytes, and a read that is not
served removes nothing. -/
theorem pairPortReads : Obligations.PairPortReads := by
  refine ⟨fun s early hl => ⟨fun hheld record hrecord => ?_, fun hheld => ?_, ?_⟩, fun s n latched h => ?_,
    fun s n => ⟨fun hl hread => ?_, fun hl hheld => ?_⟩, fun s => ?_⟩
  · obtain rfl : record = latchedBytes s.pq.queue.head? := hrecord.trans (latchedBytes_eq _).symm
    refine ⟨_, rfl, pairStart_serves early s hl hheld, ?_⟩
    rw [pairStart_serves early s hl hheld]
    exact sdoLevel_clockOut _ early
  · exact congrArg Host.Outcome.next (pairStart_held early s hl hheld)
  · simp [PairQueue.sdoHigh, hl]
  · change Host.Outcome.next (pairEnd n s) = _
    have hbytes := latchedBytes_eq latched
    obtain ⟨hl, k, hread⟩ | ⟨hl, hheld, rfl⟩ := h
    · rw [pairEnd_latched n k latched s hl hread, hbytes] <;> rfl
    · rw [pairEnd_start, pairStart_serves 0 s hl hheld, pairEnd_latched n _ _ _ rfl rfl, hbytes] <;> rfl
  · exact congrArg Host.Outcome.next (pairEnd_abandoned n s hl hread)
  · change Host.Outcome.next (pairEnd n s) = _
    rw [pairEnd_start, pairStart_held 0 s hl hheld, pairEnd_abandoned n _ rfl rfl]
    simp only [List.replicate_zero, thenZeros_nil]
  · simp [State.rdyHigh]

end Sys2Proof.Machine
end

section
/-! PROOFS. The transactions of an eye port (O27, O28, O29), the presence of an eye (O31, O32), and the TRIG line (O35). -/

namespace Sys2Proof.Machine

/-! ## Transactions that are not served -/

theorem eyeStart_serves (e : Eye) (early : Nat) (s : State) (h : (s.eye e).selLow = false) (hheld : s.isHeld = false) :
    eyeStart e early s = s.mapEye e (EyePort.start early) := by
  rw [eyeStart, if_neg (by simp [h]), if_neg (by simp [hheld])]

theorem eyeStart_held (e : Eye) (early : Nat) (s : State) (h : (s.eye e).selLow = false) (hheld : s.isHeld = true) :
    eyeStart e early s = s.mapEye e fun p => { p with selLow := true, sent := List.replicate early false } := by
  rw [eyeStart, if_neg (by simp [h]), if_pos hheld, thenZeros_nil]

/-- The falling edge at a port that serves latches its directive (R37). -/
theorem EyePort.start_served {p : EyePort} (early : Nat) (h : p.serves = true) :
    p.start early = { p with
      selLow := true, txn := some ⟨true, early / 8, early / 8, false⟩, image := p.buffer.map fun d => ⟨d, p.fresh⟩
      sent := clockOut (imageBytes (p.buffer.map fun d => ⟨d, p.fresh⟩)) early } := by
  simp only [EyePort.start, EyePort.latch, h, if_true]

/-- The falling edge at a port that does not serve begins an ignored transaction (R34). -/
theorem EyePort.start_unserved {p : EyePort} (early : Nat) (h : p.serves = false) :
    p.start early = { p with
      selLow := true, txn := some ⟨false, early / 8, early / 8, false⟩, image := none
      sent := List.replicate early false } := by
  simp only [EyePort.start, EyePort.latch, h, Bool.false_eq_true, if_false, imageBytes, clockOut_nil]

/-- A transaction that was ignored from its start judges nothing and carried 0x00. -/
theorem eyeEnd_ignored (e : Eye) (n : Nat) (judged : Option Report) (s : State) {x : EyeTxn} (h : (s.eye e).selLow = true)
    (hx : (s.eye e).txn = some x) (hserved : x.served = false) :
    eyeEnd e n judged s =
      s.mapEye e fun p => { p with selLow := false, txn := none, image := none, sent := List.replicate n false } := by
  simp only [eyeEnd, eyeStart, h, if_true, State.mapEye_eye_same, hx, Option.map_some, EyeTxn.clock, hserved,
    Bool.false_eq_true, if_false, mapEye_mapEye]
  apply mapEye_congr
  simp [EyePort.finishUnserved, hx, thenZeros_nil]

/-- A whole transaction is its falling edge and then its end. -/
theorem eyeEnd_start (e : Eye) (n : Nat) (judged : Option Report) (s : State) :
    eyeEnd e n judged s = eyeEnd e n judged (eyeStart e 0 s) := by
  have hlow : ((eyeStart e 0 s).eye e).selLow = true := by
    unfold eyeStart
    split
    · assumption
    · split <;> simp [EyePort.start]
  have htwice : eyeStart e 0 (eyeStart e 0 s) = eyeStart e 0 s := by
    conv_lhs => rw [eyeStart, if_pos hlow]
  rw [eyeEnd, eyeEnd, htwice]

theorem EyePort.serves_eq_false {p : EyePort} (h : p.state.attached = false ∨ p.enabled = false) : p.serves = false := by
  rcases h with h | h <;> simp [EyePort.serves, h]

/-- The end of an eye's transaction, by its bits or by its report. -/
theorem exec_eyeEnd {e : Eye} {c : Instr} {n : Nat}
    (h : (∃ bits, c = .reportDiscarded e bits ∧ n = bits.length) ∨
      ∃ (r : Report) (pad : Nat), reportCommand e r pad = c ∧ n = reportBits r pad) (s : State) :
    ∃ judged, exec c s = .next (eyeEnd e n judged s) := by
  obtain ⟨bits, rfl, rfl⟩ | ⟨r, pad, rfl, rfl⟩ := h
  · exact ⟨_, rfl⟩
  · refine ⟨if r.framable then some r else none, ?_⟩
    rw [← reportRecord_bits]
    cases r <;> rfl

/-- Settles O27: what the falling edge does by the port's state, and the ends of transactions that are not served. -/
theorem eyeTransactionsStart : Obligations.EyeTransactionsStart := by
  refine ⟨fun s e early hl => ⟨?_, fun hheld => ?_, fun hheld ha hen image himage => ?_, fun hheld hout => ⟨?_, fun bits => ?_⟩⟩,
    fun s e c n hl hc => ⟨fun ht => ?_, fun x hx hserved => ?_⟩⟩
  · simp [EyePort.sdoHigh, hl]
  · exact congrArg Host.Outcome.next (eyeStart_held e early s hl hheld)
  · obtain rfl : image = (s.eye e).buffer.map fun d => ⟨d, (s.eye e).fresh⟩ := by
      rw [himage]
      cases (s.eye e).buffer <;> rfl
    have hport : ((eyeStart e early s).eye e) = (s.eye e).start early := by
      rw [eyeStart_serves e early s hl hheld, State.mapEye_eye_same]
    have hstart := EyePort.start_served early (p := s.eye e) (by simp [EyePort.serves, ha, hen])
    refine ⟨eyeStart e early s, rfl, hport.trans hstart, ?_, ?_⟩
    · rw [hport, eyeStart_serves e early s hl hheld]
      rfl
    · rw [hport, hstart]
      exact sdoLevel_clockOut _ early
  · refine congrArg Host.Outcome.next ((eyeStart_serves e early s hl hheld).trans ?_)
    rw [mapEye_eq, EyePort.start_unserved early (EyePort.serves_eq_false hout)]
  · refine congrArg Host.Outcome.next ?_
    have hstart := EyePort.start_unserved 0 (EyePort.serves_eq_false hout)
    rw [eyeEnd_start, eyeStart_serves e 0 s hl hheld,
      eyeEnd_ignored e _ _ _ (x := ⟨false, 0, 0, false⟩) (by simp [hstart]) (by simp [hstart]) rfl, mapEye_mapEye, mapEye_eq,
      hstart]
  · obtain ⟨judged, hj⟩ := exec_eyeEnd hc s
    rw [hj, eyeEnd_abandoned e n judged s hl ht]
    rfl
  · obtain ⟨judged, hj⟩ := exec_eyeEnd hc s
    rw [hj, eyeEnd_ignored e n judged s hl hx hserved]
    rfl

/-! ## Reports that are judged -/

theorem exec_report_serves (e : Eye) (r : Report) (pad : Nat) (s : State) (h : s.eyeServes e) :
    exec (reportCommand e r pad) s = .next (placeReport e (if r.framable then some r else none)
      (s.mapEye e fun p => p.ended (reportBits r pad) p.slot p.lost)) := by
  have hexec : exec (reportCommand e r pad) s =
      .next (eyeEnd e (8 * (reportRecord r).length + pad) (if r.framable then some r else none) s) := by
    cases r <;> rfl
  rw [hexec, eyeEnd_serves _ _ _ _ h, reportRecord_bits]

/-- An expected report enters an empty receive slot (R43). -/
theorem placeReport_placed (e : Eye) {r : Report} (n : Nat) (s : State) (hexp : expectedIn (s.eye e).state
    (s.pe.triggers.get e).isEmpty r = true) (hidle : r ≠ .idle) (hslot : (s.eye e).slot = none) :
    placeReport e (some r) (s.mapEye e fun p => p.ended n p.slot p.lost) =
      { s with eyes := s.eyes.set e ((s.eye e).ended n (some r) (s.eye e).lost) } := by
  simp only [placeReport, State.mapEye_eye_same, EyePort.ended, State.mapEye_pe, hexp, Bool.not_true, Bool.false_eq_true,
    if_false, hidle, hslot, Option.isSome_none, mapEye_mapEye]
  rfl

theorem countLost_ended (e : Eye) (n : Nat) (s : State) :
    countLost e (s.mapEye e fun p => p.ended n p.slot p.lost) = s.reportLost e n := by
  rw [countLost, mapEye_mapEye, mapEye_eq, State.reportLost]
  congr 2
  rw [EyePort.countLost_frame, EyePort.countLost_lost_eq_lostNext, EyePort.lostNext_ended]
  rfl

/-- A report that the state does not expect, or that finds the slot taken, is lost (R41, R43). -/
theorem placeReport_lost (e : Eye) {r : Report} (n : Nat) (s : State) (hidle : r ≠ .idle)
    (h : expectedIn (s.eye e).state (s.pe.triggers.get e).isEmpty r = false ∨ (s.eye e).slot.isSome = true) :
    placeReport e (some r) (s.mapEye e fun p => p.ended n p.slot p.lost) = s.reportLost e n := by
  rw [← countLost_ended]
  simp only [placeReport, State.mapEye_eye_same, EyePort.ended, State.mapEye_pe, hidle, if_false]
  cases hexp : expectedIn (s.eye e).state (s.pe.triggers.get e).isEmpty r with
  | false => simp
  | true => simp [h.resolve_left (by simp [hexp])]

/-- Settles O28: the four kinds of report that an eye's state expects. -/
theorem expectedReportsPlaced : Obligations.ExpectedReportsPlaced := by
  intro s e pad h hslot
  have placed : ∀ r : Report, r.framable = true → r ≠ .idle →
      expectedIn (s.eye e).state (s.pe.triggers.get e).isEmpty r = true →
      exec (reportCommand e r pad) s = .next
        { s with eyes := s.eyes.set e ((s.eye e).ended (reportBits r pad) (some r) (s.eye e).lost) } := by
    intro r hr hidle hexp
    rw [exec_report_serves e r pad s h, if_pos hr, placeReport_placed e _ s hexp hidle hslot]
  refine ⟨fun caps hcaps => ?_, fun index hp => ⟨?_, ?_⟩, fun frame hin hlist => ?_⟩
  · exact placed (.caps caps) (by simpa [Report.framable] using hcaps) (by simp) h.2.1
  · exact placed (.accept index) rfl (by simp) (by simp [expectedIn, hp])
  · exact placed (.refuse index) rfl (by simp) (by simp [expectedIn, hp])
  · refine placed (.frame frame) rfl (by simp) ?_
    rcases hin with hin | hin <;> simp [expectedIn, hin, hlist]

/-- Settles O29: each way a report is lost comes to one count of it. -/
theorem refusedReportsCounted : Obligations.RefusedReportsCounted := by
  intro s e pad h
  have lost : ∀ r : Report, r ≠ .idle → r.framable = false ∨
      expectedIn (s.eye e).state (s.pe.triggers.get e).isEmpty r = false ∨ (s.eye e).slot.isSome = true →
      exec (reportCommand e r pad) s = .next (s.reportLost e (reportBits r pad)) := by
    intro r hidle hr
    rw [exec_report_serves e r pad s h]
    by_cases hf : r.framable = true
    · rw [if_pos hf, placeReport_lost e _ s hidle (hr.resolve_left (by simp [hf]))]
    · rw [if_neg hf, placeReport_none, countLost_ended]
  refine ⟨fun bits hread => ?_, fun caps hcaps => ?_, fun index hp => ⟨?_, ?_⟩, fun frame hf => ?_⟩
  · rw [exec_reportDiscarded_serves e bits s h hread, countLost_ended]
  · exact lost (.caps caps) (by simp) (hcaps.imp (by simp [Report.framable]) .inr)
  · exact lost (.accept index) (by simp) (.inr (hp.imp (by simp [expectedIn]) id))
  · exact lost (.refuse index) (by simp) (.inr (hp.imp (by simp [expectedIn]) id))
  · refine lost (.frame frame) (by simp) (.inr ?_)
    rcases hf with ⟨ha, hr⟩ | hlist | hslot
    · left
      cases hs : (s.eye e).state <;> simp_all [expectedIn]
    · left
      simp [expectedIn, hlist]
    · exact .inr hslot

/-! ## Presence -/

theorem EyePort.maySettle_eq_false {p : EyePort} (h : p.state ≠ .detached) : p.maySettle = false := by
  simp [EyePort.maySettle, h]

theorem EyePort.rise_attached {p : EyePort} (h : p.state.attached = true) : p.rise = { p with pres := true, timer := .low 0 } := by
  have hd : p.state ≠ .detached := by
    intro hd
    simp [hd] at h
  simp [EyePort.rise, EyePort.maySettle, hd, h]

theorem EyePort.fall_attached {p : EyePort} (h : p.state.attached = true) : p.fall = { p with pres := false, timer := .low 0 } := by
  have hd : p.state ≠ .settling := by
    intro hd
    simp [hd] at h
  simp [EyePort.fall, hd, h]

/-- Settles O31: each edge of PRES by the eye's state, and the end of the debounce. -/
theorem presenceEdges : Obligations.PresenceEdges := by
  intro s e
  have rises : s.isHeld = false → (s.eye e).pres = false → exec (.presRise e) s = .next (s.mapEye e EyePort.rise) := by
    intro h hp
    simp [exec, execPresRise, h, hp]
  have falls : s.isHeld = false → (s.eye e).pres = true → exec (.presFall e) s = .next (s.mapEye e EyePort.fall) := by
    intro h hp
    simp [exec, execPresFall, h, hp]
  refine ⟨fun h hp => ⟨fun hs hen => ?_, fun hs hen => ?_, fun ha => ?_⟩, fun h hp => ⟨fun hs => ?_, fun hs => ?_, fun ha => ?_⟩,
    fun h => ⟨?_, ?_⟩, fun c hs hp ht => ?_⟩
  · rw [rises h hp, mapEye_eq]
    simp [EyePort.rise, EyePort.maySettle, EyePort.settle, hs, hen]
  · rw [rises h hp, mapEye_eq]
    simp [EyePort.rise, EyePort.maySettle, hs, hen]
  · rw [rises h hp, mapEye_eq, EyePort.rise_attached ha]
  · rw [falls h hp, mapEye_eq]
    simp [EyePort.fall, hs]
  · rw [falls h hp, mapEye_eq]
    simp [EyePort.fall, hs]
  · rw [falls h hp, mapEye_eq, EyePort.fall_attached ha]
  · simp [exec, execPresRise, h, mapEye_eq]
  · simp [exec, execPresFall, h, mapEye_eq]
  · have hleft : (s.eye e).settleLeft = some (10000000 - c) := by
      simp [EyePort.settleLeft, hs, hp, ht, Config.settleTicks]
    have hexec : exec (.settleComplete e) s = .next (settleEye e (advance (10000000 - c) s)) := by
      simp [exec, execSettleComplete, hleft]
    generalize hn : 10000000 - c = n at *
    refine ⟨_, hexec, ?_, ?_, ?_⟩
    · cases e <;> rfl
    · simp only [settleEye, raise_eye, State.mapEye_eye_same, waitEye_eye, if_true, EyePort.writeDirective, EyePort.enterState,
        advance_eye]
      simp
    · simp [settleEye, State.mapEye_eye, waitEye_eye]

theorem eyeCode_eq (e : Eye) : eyeCode (match e with | .left => 0 | .right => 1) = some e := by
  cases e <;> rfl

theorem eyeCode_eq_none {code : Byte} (h : 1 < code.toNat) : eyeCode code = none := by
  have h0 : code ≠ 0 := by
    rintro rfl
    simp at h
  have h1 : code ≠ 1 := by
    rintro rfl
    simp at h
  rw [eyeCode, if_neg h0, if_neg h1]

theorem exec_portEnable_eye {code : Byte} {e : Eye} (pad : Nat) (s : State) (hs : s.rcpServes) (h : eyeCode code = some e) :
    exec (.portEnable code pad) s = .next (answer 0x68 .done (enablePort e (s.rcpClosed (requestBits (.port code 1) pad)))) := by
  rw [exec_portEnable_serves code pad s hs, decidePort, h]
  rfl

theorem exec_portDisable_eye {code : Byte} {e : Eye} (pad : Nat) (s : State) (hs : s.rcpServes) (h : eyeCode code = some e) :
    exec (.portDisable code pad) s = .next (answer 0x68 .done (disablePort e (s.rcpClosed (requestBits (.port code 0) pad)))) := by
  rw [exec_portDisable_serves code pad s hs, decidePort, h]
  rfl

/-- Settles O32: the requests that name no eye, that find the port as asked, or whose eye is not attached. -/
theorem portRequests : Obligations.PortRequests := by
  intro s code pad hs
  refine ⟨fun h => ⟨?_, ?_⟩, fun e he => ⟨fun hen => ?_, fun hen => ?_, fun hen hd => ?_, fun hen ha => ?_⟩⟩
  · rw [exec_portEnable_serves code pad s hs, decidePort, eyeCode_eq_none h]
    rfl
  · rw [exec_portDisable_serves code pad s hs, decidePort, eyeCode_eq_none h]
    rfl
  all_goals have hcode : eyeCode code = some e := by rw [he]; exact eyeCode_eq e
  · rw [exec_portEnable_eye pad s hs hcode, enablePort, if_pos (by simpa using hen)]
    rfl
  · rw [exec_portDisable_eye pad s hs hcode, disablePort, if_pos (by simpa using hen)]
    rfl
  · rw [exec_portEnable_eye pad s hs hcode, enablePort, if_neg (by simp [hen]), mapEye_eq]
    simp only [rcpClosed_frame]
    by_cases hp : (s.eye e).pres = true <;> simp [EyePort.maySettle, EyePort.settle, hd, hp] <;> rfl
  · rw [exec_portDisable_eye pad s hs hcode, disablePort, if_neg (by simp [hen])]
    simp only [rcpClosed_frame, ha, Bool.false_eq_true, if_false, mapEye_mapEye]
    rw [mapEye_eq]
    rfl

/-! ## The TRIG line -/

theorem PerEye_set_get {α : Type} (p : PerEye α) (e : Eye) : p.set e (p.get e) = p := by
  cases e <;> rfl

/-- The part of a slot after its pulse has fired (R134). -/
theorem mapPart_fire (e : Eye) (number : BitVec 16) (slot : PairSlot) :
    slot.mapPart e (EyePart.fire number) =
      if (slot.parts.get e).state = .triggerPending then
        { slot with parts := slot.parts.set e { slot.parts.get e with
          state := .awaited, triggered := true, trigger := number } }
      else slot := by
  unfold PairSlot.mapPart EyePart.fire
  split
  · rfl
  · rw [PerEye_set_get]

/-- Settles O35: the pulse due first fires, and TRIG falls 100 ticks after it rose. -/
theorem triggerPulsesFire : Obligations.TriggerPulsesFire := by
  refine fun s e => ⟨fun before p rest hpulses hbefore hrest hin => ?_, fun h => ?_, fun since h => ?_⟩
  · have hfirst := (earliestPulse_eq_some s.timebase _ p).2 ⟨before, rest, hpulses, hbefore, hrest⟩
    have hexec : exec (.triggerPulse e) s = .next (firePulse e p (waitUntil p.time s)) := by
      simp [exec, execTriggerPulse, hfirst, hin]
    have hnot : p ∉ before := fun hmem => lt_irrefl _ (hbefore p hmem)
    have herase : ((waitUntil p.time s).tp.pulses.get e).erase p = before ++ rest := by
      change (s.tp.pulses.get e).erase p = before ++ rest
      rw [hpulses, List.erase_append_right _ hnot, List.erase_cons_head]
    rw [hexec]
    congr 1
    simp only [firePulse, mapSlotOf, State.mapPe, State.mapTp, State.mapEye, State.mapEyes]
    rw [herase]
    simp only [mapPart_fire, ← ite_and]
    rfl
  · have hexec : exec (.triggerPulse e) s = execTriggerPulse e s := rfl
    rw [hexec, execTriggerPulse]
    rcases h with h | h
    · split <;> simp [h]
    · simp [h]
  · simp only [exec, execTrigPulseEnd, h]
    rfl

end Sys2Proof.Machine
end


section
/-! PROOFS. The clock, the resets and the counts that only one command moves (O2, O13, O14, O24, O25). -/

namespace Sys2Proof.Machine

/-! ## The clock -/

theorem PresenceTimer.advance_advance (m n : Nat) (pres : Bool) (t : PresenceTimer) :
    (t.advance m pres).advance n pres = t.advance (m + n) pres := by
  cases t with
  | idle => rfl
  | high c => cases pres <;> simp [PresenceTimer.advance]; omega
  | low c => cases pres <;> simp [PresenceTimer.advance]; omega

theorem EyePort.advance_advance (m n : Nat) (p : EyePort) : (p.advance m).advance n = p.advance (m + n) := by
  simp only [EyePort.advance, PresenceTimer.advance_advance, EyePort.mk.injEq, true_and, and_true]
  cases p.takenFull <;> simp [Nat.add_eq_zero_iff, Bool.and_comm]

theorem Resets.advance_advance (m n : Nat) (r : Resets) : (r.advance m).advance n = r.advance (m + n) := by
  obtain ⟨p, z, q⟩ := r
  cases p <;> cases q <;> simp [Resets.advance] <;> omega

/-- Two waits are one: the clock does not see how a wait is cut. -/
theorem advance_advance (m n : Nat) (s : State) : advance n (advance m s) = advance (m + n) s := by
  have heyes : (s.eyes.map (EyePort.advance m)).map (EyePort.advance n) = s.eyes.map (EyePort.advance (m + n)) := by
    simp [PerEye.map, EyePort.advance_advance]
  have htime : after (after s.timebase m) n = after s.timebase (m + n) := by
    simp [after, BitVec.ofNat_add, BitVec.add_assoc]
  unfold advance
  simp only [State.mk.injEq, true_and, and_true]
  refine ⟨?_, heyes, Resets.advance_advance m n s.resets⟩
  have hheld := advance_isHeld m s
  unfold advance at hheld
  rw [hheld]
  split
  · rfl
  · exact htime

theorem Resets.advance_of_not_inForce (n : Nat) {r : Resets} (h : r.inForce = false) : r.advance n = r := by
  obtain ⟨p, z, q⟩ := r
  simp only [Resets.inForce, Bool.or_eq_false_iff, Option.isSome_eq_false_iff, Option.isNone_iff_eq_none] at h
  obtain ⟨⟨rfl, -⟩, rfl⟩ := h
  rfl

theorem step_of_idle {s : State} (h : s.pending = []) : step s = .next (tick s) := by
  rw [step.eq_def, h]

theorem run_succ_of_next {M : Host.Core} {s t : M.State} (k : Nat) (h : M.step s = .next t) : M.run (k + 1) s = M.run k t := by
  rw [Host.Core.run.eq_def]
  simp only [h]

theorem run_succ_of_idle (k : Nat) {s : State} (h : s.pending = []) :
    Host.Core.run Sys2Proof.core (k + 1) s = Host.Core.run Sys2Proof.core k (tick s) :=
  run_succ_of_next (M := Sys2Proof.core) k (step_of_idle h)

/-- Steps on an empty queue are one wait. -/
theorem run_of_idle (n : Nat) {s : State} (h : s.pending = []) :
    Host.Core.run Sys2Proof.core (n + 1) s = .next (advance (n + 1) s) := by
  induction n generalizing s with
  | zero => exact run_succ_of_idle 0 h
  | succ n ih =>
    rw [run_succ_of_idle (n + 1) h, ih (s := tick s) h, tick, advance_advance, Nat.add_comm 1]

theorem EyePort.advance_succ (n : Nat) (p : EyePort) :
    p.advance (n + 1) =
      { p with
        timer := match p.timer with
          | .idle => .idle
          | .high c => if p.pres then .high (min (c + (n + 1)) 10000000) else .high c
          | .low c => if p.pres then .low c else .low (min (c + (n + 1)) 100000)
        takenFull := false } := by
  unfold EyePort.advance PresenceTimer.advance
  simp only [Nat.add_eq_zero_iff, one_ne_zero, and_false, decide_false, Bool.false_and]
  rfl

/-- Settles O2: the steps are one wait, which moves the timebase and the presence timers alone. -/
theorem idleStepsCountTicks : Obligations.IdleStepsCountTicks := by
  intro n s hpending hheld
  rw [run_of_idle n hpending, advance, hheld, Resets.advance_of_not_inForce _ hheld]
  refine congrArg Host.Outcome.next (congrArg (fun eyes => { s with timebase := after s.timebase (n + 1), eyes := eyes }) ?_)
  exact congrArg (fun f => s.eyes.map f) (funext (EyePort.advance_succ n))

/-! ## Resets -/

/-- Settles O13: a reset's state is written out by its definition, with the port closed first where the request carries it. -/
theorem resetsComeIntoForce : Obligations.ResetsComeIntoForce := by
  refine fun s => ⟨fun c kind pad h => ?_, fun n hn => ?_⟩
  · obtain ⟨n, hn, rfl, rfl⟩ | ⟨rfl, rfl⟩ | ⟨hs, rfl, rfl⟩ := h
    · exact if_pos hn
    · rfl
    · exact exec_reset_serves pad s hs
  · exact if_neg (Nat.not_le.mpr hn)

theorem EyePort.advance_of_atReset (n : Nat) {p : EyePort} (h : p = .atReset p.pres p.selLow p.sent) : p.advance n = p := by
  rw [h]
  simp [EyePort.advance, EyePort.atReset, PresenceTimer.advance]

/-- A part at its reset values lets only its resets count on. -/
theorem advance_eq_of_atReset (n : Nat) {s : State} (h : holdInReset s = s) (hheld : s.isHeld = true) :
    advance n s = { s with resets := s.resets.advance n } := by
  obtain ⟨-, -, heye, -⟩ := (holdInReset_eq_iff s).1 h
  have heyes : s.eyes.map (EyePort.advance n) = s.eyes := by
    have hl := EyePort.advance_of_atReset n (heye .left)
    have hr := EyePort.advance_of_atReset n (heye .right)
    exact congrArg₂ PerEye.mk hl hr
  unfold advance
  rw [hheld, heyes]
  rfl

theorem Resets.has_lift_advance (k k' : ResetKind) (n : Nat) (r : Resets) :
    ((r.advance n).lift k).has k' = (decide (k' ≠ k) && r.has k') := by
  cases k <;> cases k' <;> simp [Resets.lift, Resets.has, Resets.advance]

theorem Resets.inForce_iff (r : Resets) : r.inForce = true ↔ ∃ k, r.has k = true := by
  constructor
  · intro h
    simp only [Resets.inForce, Bool.or_eq_true] at h
    obtain (h | h) | h := h
    · exact ⟨.powerOn, h⟩
    · exact ⟨.pin, h⟩
    · exact ⟨.request, h⟩
  · rintro ⟨k, h⟩
    cases k <;> simp_all [Resets.has, Resets.inForce]

theorem Resets.eq_none_of_not_inForce {r : Resets} (h : r.inForce = false) : r = ⟨none, false, none⟩ := by
  obtain ⟨p, z, q⟩ := r
  simp only [Resets.inForce, Bool.or_eq_false_iff, Option.isSome_eq_false_iff, Option.isNone_iff_eq_none] at h
  obtain ⟨⟨rfl, rfl⟩, rfl⟩ := h
  rfl

/-- The part at its reset values starts: the ports with PRES high settle, and RESET_SEEN is the one notice. -/
theorem releasePart_atReset {s : State} (h : holdInReset s = s) :
    releasePart s = { s with
      eyes := s.eyes.map fun p => if p.pres then { p with state := .settling, timer := .high 0 } else p
      rcp := { s.rcp with notices := 0x80 } } := by
  obtain ⟨-, -, heye, -, -, -, -, -, -, hrcp⟩ := (holdInReset_eq_iff s).1 h
  have hport : ∀ e, (if (s.eye e).maySettle then (s.eye e).settle else s.eye e) =
      if (s.eye e).pres then { s.eye e with state := .settling, timer := .high 0 } else s.eye e := by
    intro e
    have hmay : (s.eye e).maySettle = (s.eye e).pres := by
      rw [heye e]
      rfl
    rw [hmay]
    rfl
  have hnotices : addNotice s.rcp.notices .resetSeen = 0x80 := by
    rw [hrcp]
    change addNotice 0 .resetSeen = 0x80
    decide
  have heyes : (s.eyes.map fun p => if p.maySettle then p.settle else p) =
      s.eyes.map fun p => if p.pres then { p with state := .settling, timer := .high 0 } else p :=
    congrArg₂ PerEye.mk (hport .left) (hport .right)
  exact congrArg₂ (fun eyes notices => { s with eyes := eyes, rcp := { s.rcp with notices := notices } }) heyes hnotices

/-- Settles O14: a held part lets only its resets count; the last one lifted starts it. -/
theorem resetsAreReleased : Obligations.ResetsAreReleased := by
  intro s kind hsound hhas
  have hheld : s.isHeld = true := (Resets.inForce_iff _).2 ⟨kind, hhas⟩
  have hreset := hsound hheld
  obtain ⟨lifted, hlifted⟩ : ∃ r, r = (s.resets.advance (s.resets.remaining kind)).lift kind := ⟨_, rfl⟩
  have hhasLifted : ∀ k, lifted.has k = (decide (k ≠ kind) && s.resets.has k) := fun k => by
    rw [hlifted, Resets.has_lift_advance]
  have hend : endReset kind s =
      if lifted.inForce then { s with resets := lifted } else releasePart { s with resets := lifted } := by
    rw [endReset, if_pos hhas, advance_eq_of_atReset _ hreset hheld, hlifted]
    rfl
  refine ⟨_, rfl, ?_⟩
  rw [hend]
  by_cases hin : lifted.inForce = true
  · rw [if_pos hin]
    refine ⟨⟨by simp [hhasLifted], fun k hk => by simp [hhasLifted, hk]⟩, fun _ => rfl, fun hnone => ?_⟩
    obtain ⟨k, hk⟩ := (Resets.inForce_iff _).1 hin
    rw [hhasLifted, Bool.and_eq_true, decide_eq_true_eq] at hk
    rw [hnone k hk.1] at hk
    simp at hk
  · have hnone : lifted = ⟨none, false, none⟩ := Resets.eq_none_of_not_inForce (by simpa using hin)
    have hrelease := releasePart_atReset (atReset_others hreset lifted s.pending)
    rw [if_neg hin]
    refine ⟨⟨(hhasLifted kind).trans (by simp), fun k hk => (hhasLifted k).trans (by simp [hk])⟩, fun ⟨k, hk, hkhas⟩ => ?_,
      fun _ => ⟨hrelease.trans (by rw [hnone]), ?_⟩⟩
    · exact absurd ((Resets.inForce_iff _).2 ⟨k, by simp [hhasLifted, hk, hkhas]⟩) hin
    · obtain ⟨htime, -, -, -, -, hlts, -⟩ := (holdInReset_eq_iff s).1 hreset
      rw [hrelease, hnone]
      exact ⟨htime, rfl, by rw [hlts]; rfl, rfl⟩

/-! ## The count of marks -/

theorem enterDraining_cg (s : State) : (enterDraining s).cg = s.cg.drain := by simp [enterDraining]

theorem testLoss_cg (e : Eye) (s : State) :
    (testLoss e s).cg = if s.cg.rig = .rolling ∧ (s.eye e.other).state.inTake = false then s.cg.drain else s.cg := by
  unfold testLoss
  split
  · exact enterDraining_cg s
  · rfl

/-- What the Cadence Generator keeps of a plan's start: all but the step of the rate and the next mark (R11, R15, R68). -/
theorem beginPlan_eq (c : Cadence) (a : Agreement) (now : Time) :
    c.beginPlan a now =
      { c with
        currentRate := (c.beginPlan a now).currentRate, ramp := (c.beginPlan a now).ramp
        planPeriod := (c.beginPlan a now).planPeriod, nextMark := (c.beginPlan a now).nextMark } := by
  unfold Cadence.beginPlan
  dsimp only
  split <;> rfl

theorem planStart_cg (s : State) :
    (planStart s).cg = match s.ae.agreement with | some a => s.cg.beginPlan a s.timebase | none => s.cg := by
  unfold planStart
  dsimp only
  rw [show ((applyPendingOps s).mapLme fun l => { l with clearMark := .both false }).ae = s.ae by simp]
  cases s.ae.agreement <;> simp

/-- The count of rolling marks and the last of them. -/
def Cadence.marks (c : Cadence) : MarkNumber × Option (MarkNumber × Time) := (c.markCounter, c.lastMark)

@[simp] theorem planStart_marks (s : State) : (planStart s).cg.marks = s.cg.marks := by
  rw [planStart_cg]
  cases s.ae.agreement with
  | none => rfl
  | some a =>
    simp only
    rw [beginPlan_eq]
    rfl

@[simp] theorem testLoss_marks (e : Eye) (s : State) : (testLoss e s).cg.marks = s.cg.marks := by
  rw [testLoss_cg]
  split <;> rfl

@[simp] theorem passMark_marks (m : Time) (number : Option MarkNumber) (c : Cadence) : (c.passMark m number).marks = c.marks := by
  unfold Cadence.passMark
  dsimp only
  (repeat' split) <;> rfl

theorem rollMark_marks (m : Time) (plan : Plan) (s : State) :
    (rollMark m plan s).cg.marks = (s.cg.markCounter + 1, some (s.cg.markCounter, s.timebase)) := by
  rw [rollMark_eq, planStart_marks]
  simp [rollMarkLaid, rollMarkOpened, rollMarkJoined, Cadence.marks, Cadence.numberMark]

theorem takeCaps_marks (e : Eye) (raw : RawCaps) (s : State) : (takeCaps e raw s).cg.marks = s.cg.marks := by
  unfold takeCaps
  split
  · rw [invalidCaps_eq]
    (repeat' split) <;> simp [leaveTake, invalidOut_cg]
  · split
    · simp
    · rw [validCapsTake_eq]
      unfold rejoinOut
      split <;> simp [leaveTake]

theorem leaveAttached_marks (e : Eye) (s : State) : (leaveAttached e s).cg.marks = s.cg.marks := by
  have hout : (detachedOut e s).cg = s.cg := by
    unfold detachedOut
    split <;> simp
  rw [leaveAttached_eq]
  split <;> simp [hout]

theorem disablePort_marks (e : Eye) (s : State) : (disablePort e s).cg.marks = s.cg.marks := by
  unfold disablePort
  dsimp only
  (repeat' split) <;> simp [leaveAttached_marks]

theorem drainMarkEvent_marks (m : Time) (s : State) : (drainMarkEvent m s).cg.marks = s.cg.marks := by
  have hmark : ∀ now, (s.cg.drainMark m now).marks = s.cg.marks := fun now =>
    Eq.trans rfl (passMark_marks m none s.cg)
  unfold drainMarkEvent
  dsimp only
  split
  · refine Eq.trans ?_ (hmark (waitUntil m s).timebase)
    simp [Cadence.endDrain, Cadence.marks]
  · simpa using hmark _

theorem refEdge_marks (s : State) : (refEdge s).cg.marks = s.cg.marks := by
  unfold refEdge
  split
  · rfl
  · simp only [State.mapCg_cg, Cadence.seekEdge]
    (repeat' split) <;> rfl
  · split
    · rw [attributeEdge_cg]
      rfl
    · rfl
  · rfl

theorem decision_marks {s t : State} {r : Request} (h : Decision s r t) :
    t.cg.marks = s.cg.marks ∧ t.resets = s.resets := by
  cases h with
  | roll =>
    refine ⟨?_, by simp⟩
    unfold startTake
    dsimp only
    split
    · rw [planStart_marks]
      simp [Cadence.marks]
    · simp [Cadence.marks]
  | disable _ _ e => exact ⟨disablePort_marks e s, by simp⟩
  | rate target marks hsource =>
    refine ⟨?_, rfl⟩
    rw [State.mapCg_cg, Cadence.setRate_eq]
    rfl
  | cut => exact ⟨by rw [enterDraining_cg]; rfl, by simp⟩
  | _ => simp [Cadence.marks, Cadence.toRef, Cadence.toFree]

/-- No command but a rolling mark's and a reset's moves the count. -/
theorem Move.marks_cases {c : Instr} {s t : State} (h : Move s c t) :
    t.cg.marks = s.cg.marks ∨ (t.isHeld = true ∧ t.cg.markCounter = 0) ∨
      ∃ m, c = .rollingMark ∧ s.dueMark .rolling = some m ∧ t = rollingMarkEvent m s := by
  cases h with
  | judged _ n v =>
    have hkept : (rcpEnd n (actOn v) s).cg.marks = s.cg.marks ∨
        (rcpEnd n (actOn v) s).isHeld = true ∧ (rcpEnd n (actOn v) s).cg.markCounter = 0 := by
      refine judged_keeps_of_decisions (P := fun t => t.cg.marks = s.cg.marks ∨ t.isHeld = true ∧ t.cg.markCounter = 0)
        (fun t r h => h) (fun t u r h hd => ?_) (fun k t _ => .inr ⟨enforceReset_isHeld k t, rfl⟩) n v (.inl rfl)
      obtain ⟨hmarks, hresets⟩ := decision_marks hd
      obtain h | ⟨hheld, hzero⟩ := h
      · exact .inl (hmarks.trans h)
      · exact .inr ⟨by rw [State.isHeld_eq, hresets]; exact hheld, (congrArg Prod.fst hmarks).trans hzero⟩
    exact hkept.imp_right .inl
  | rollingMark m h => exact .inr (.inr ⟨m, rfl, h, rfl⟩)
  | reset _ k => exact .inr (.inl ⟨enforceReset_isHeld k s, rfl⟩)
  | capsTaken e raw => exact .inl ((takeCaps_marks e raw _).trans (by simp))
  | detached e n => exact .inl (leaveAttached_marks e _)
  | drainMark m => exact .inl (drainMarkEvent_marks m s)
  | refinEdge => exact .inl (refEdge_marks s)
  | leadMark m => exact .inl ((planStart_marks _).trans (passMark_marks m none s.cg))
  | setupMark m => exact .inl (passMark_marks m none s.cg)
  | windowClose w p =>
    refine .inl ?_
    unfold closeRefWindow
    dsimp only
    split <;> rfl
  | release k =>
    refine .inl ?_
    unfold endReset
    dsimp only
    (repeat' split) <;> rfl
  | _ => exact .inl (by simp)

/-- A rolling mark counts, if its plan is ready. -/
theorem rollingMarkEvent_marks (m : Time) (s : State) :
    (rollingMarkEvent m s).cg.marks = s.cg.marks ∨
      (rollingMarkEvent m s).cg.marks = (s.cg.markCounter + 1, some (s.cg.markCounter, (rollingMarkEvent m s).timebase)) := by
  unfold rollingMarkEvent
  dsimp only
  split
  · exact .inl (by simp)
  · next plan _ =>
    refine .inr ((rollMark_marks m plan _).trans ?_)
    simp

/-- Settles O24: of the moves only a rolling mark and a reset touch the count. -/
theorem onlyRollingMarksCount : Obligations.OnlyRollingMarksCount := by
  intro c s t h
  obtain hsame | hreset | ⟨m, rfl, hdue, rfl⟩ := (move_of_exec h).marks_cases
  · exact .inl (congrArg Prod.fst hsame)
  · exact .inr (.inr hreset)
  · obtain ⟨-, hkind, -⟩ := dueMark_eq_some hdue
    obtain hsame | hmark := rollingMarkEvent_marks m s
    · exact .inl (congrArg Prod.fst hsame)
    · exact .inr (.inl ⟨rfl, ((markKind_iff s).2.2.1.1 hkind).1, congrArg Prod.fst hmark, congrArg Prod.snd hmark⟩)

/-! ## The search for a reference -/

theorem inPeriodRange_iff (i : Nat) : inPeriodRange i = true ↔ 400000 ≤ i ∧ i ≤ 100000000 := decide_eq_true_iff

theorem closeTo_iff (i j : Nat) : closeTo i j = true ↔ 200 * ((i : Int) - j).natAbs ≤ j := decide_eq_true_iff

theorem SeekRecord.interval_out {r : SeekRecord} {i : Nat} (h : ¬ (400000 ≤ i ∧ i ≤ 100000000)) :
    r.interval i = { r with lastGood := none, good := 0 } := by
  rw [← inPeriodRange_iff, Bool.not_eq_true] at h
  rw [SeekRecord.interval, h]
  rfl

/-- A good interval that is not near the last good one starts the count anew (R17). -/
theorem SeekRecord.interval_far {r : SeekRecord} {i j : Nat} (h : 400000 ≤ i ∧ i ≤ 100000000) (hgood : r.good ≠ 0)
    (hlast : r.lastGood = some j) (hfar : j < 200 * ((i : Int) - j).natAbs) :
    r.interval i = { r with lastGood := some i, good := 1 } := by
  have hclose : closeTo i j = false := by
    rw [← Bool.not_eq_true, closeTo_iff]
    exact Nat.not_le.mpr hfar
  obtain ⟨edge, last, good⟩ := r
  obtain rfl : last = some j := hlast
  obtain ⟨k, rfl⟩ := Nat.exists_eq_succ_of_ne_zero hgood
  simp [SeekRecord.interval, (inPeriodRange_iff i).2 h, hclose]

/-- A good interval that is the first, or near the last good one, counts on (R17). -/
theorem SeekRecord.interval_near {r : SeekRecord} {i : Nat} (h : 400000 ≤ i ∧ i ≤ 100000000)
    (hlast : r.good ≠ 0 → r.lastGood.isSome = true)
    (hnear : r.good = 0 ∨ ∀ j, r.lastGood = some j → 200 * ((i : Int) - j).natAbs ≤ j) :
    r.interval i = { r with lastGood := some i, good := r.good + 1 } := by
  have hin := (inPeriodRange_iff i).2 h
  obtain ⟨edge, last, _ | k⟩ := r
  · simp [SeekRecord.interval, hin]
  · obtain ⟨j, rfl⟩ := Option.isSome_iff_exists.1 (hlast (Nat.succ_ne_zero k))
    have hclose := (closeTo_iff i j).2 ((hnear.resolve_left (Nat.succ_ne_zero k)) j rfl)
    simp [SeekRecord.interval, hin, hclose]

theorem seekEdge_first {c : Cadence} (now : Time) (h : c.seek.lastEdge = none) :
    c.seekEdge now = { c with seek := { c.seek with lastEdge := some now } } := by
  unfold Cadence.seekEdge
  rw [h]

theorem seekEdge_next {c : Cadence} {last : Time} (now : Time) (h : c.seek.lastEdge = some last) :
    c.seekEdge now =
      if 3 ≤ (c.seek.interval (now - last).toNat).good then
        { c with
          ref := .locked, period := some (now - last).toNat, seek := ⟨none, none, 0⟩, lock := ⟨none, 0, false⟩
          nextMark := some (after now (now - last).toNat)
          window := some ⟨after now (now - last).toNat, (now - last).toNat / 8, none⟩ }
      else { c with seek := { c.seek.interval (now - last).toNat with lastEdge := some now } } := by
  unfold Cadence.seekEdge
  rw [h] <;> rfl

/-- Settles O25: the first edge, an interval out of range, one far from the last good one, and one that counts on. -/
theorem seekingEdges : Obligations.SeekingEdges := by
  intro s hseek hsome
  have hexec : exec .refinEdge s = .next (s.mapCg (Cadence.seekEdge s.timebase)) := by
    change Host.Outcome.next (refEdge s) = _
    rw [refEdge, hseek] <;> rfl
  have hcg : ∀ c, s.cg.seekEdge s.timebase = c → exec .refinEdge s = .next { s with cg := c } := by
    rintro c rfl
    exact hexec
  refine ⟨fun hlast => hcg _ (seekEdge_first s.timebase hlast), fun last i hlast hi => ?_⟩
  subst hi
  refine ⟨fun hout => ?_, fun hin hgood hfar => ?_, fun hin hnear => ⟨fun hgood => ?_, fun hgood => ?_⟩⟩ <;>
    refine hcg _ ((seekEdge_next s.timebase hlast).trans ?_)
  · rw [SeekRecord.interval_out hout] <;> rfl
  · obtain ⟨j, hj⟩ := Option.isSome_iff_exists.1 (hsome hgood)
    rw [SeekRecord.interval_far hin hgood hj (hfar j hj)] <;> rfl
  · rw [SeekRecord.interval_near hin hsome hnear, if_neg (by dsimp only; omega)]
  · rw [SeekRecord.interval_near hin hsome hnear, if_pos (by dsimp only; omega)] <;> rfl

end Sys2Proof.Machine
end

section
/-! PROOFS. The rate and period of a plan with source FREE, and the edges of a locked reference (O20, O26). -/

namespace Sys2Proof.Machine

/-! ## The step of a ramp -/

theorem Cadence.stepRate_ramp {c : Cadence} {r : Ramp} (h : c.ramp = some r) : c.stepRate = r.next.rate := by
  rw [Cadence.stepRate, h]
  rfl

theorem Cadence.steppedRamp_ramp {c : Cadence} {r : Ramp} (h : c.ramp = some r) :
    c.steppedRamp = if r.marks ≤ r.k + 1 then none else some { r with k := r.k + 1 } := by
  rw [Cadence.steppedRamp, h]
  rfl

/-- The exact part of a ramp's way after one more step is rounded to an amount between 0 and the whole way. -/
theorem Ramp.next_rate {r : Ramp} (h : r.k < r.marks) :
    ∃ q : Int, roundsTo (((r.r1 : Int) - r.r0) * (r.k + 1)) r.marks q ∧ (r.next.rate : Int) = r.r0 + q ∧
      (0 ≤ q ∧ q ≤ (r.r1 : Int) - r.r0 ∨ (r.r1 : Int) - r.r0 ≤ q ∧ q ≤ 0) ∧
      (r.k + 1 = r.marks → q = (r.r1 : Int) - r.r0) := by
  have hmarks : (0 : Int) < r.marks := by omega
  have hk : ((r.k : Int) + 1) ≤ r.marks := by omega
  have hround := roundsTo_roundQuot (((r.r1 : Int) - r.r0) * (r.k + 1)) (ne_of_gt hmarks)
  have hbetween : 0 ≤ roundQuot (((r.r1 : Int) - r.r0) * (r.k + 1)) r.marks ∧
      roundQuot (((r.r1 : Int) - r.r0) * (r.k + 1)) r.marks ≤ (r.r1 : Int) - r.r0 ∨
      (r.r1 : Int) - r.r0 ≤ roundQuot (((r.r1 : Int) - r.r0) * (r.k + 1)) r.marks ∧
      roundQuot (((r.r1 : Int) - r.r0) * (r.k + 1)) r.marks ≤ 0 := by
    obtain hup | hdown := le_total (0 : Int) ((r.r1 : Int) - r.r0)
    · exact .inl ⟨ge_of_roundsTo hmarks hround (by nlinarith), le_of_roundsTo hmarks hround (by nlinarith)⟩
    · exact .inr ⟨ge_of_roundsTo hmarks hround (by nlinarith), le_of_roundsTo hmarks hround (by nlinarith)⟩
  refine ⟨_, hround, ?_, hbetween, fun hlast => ?_⟩
  · change ((((r.r0 : Int) + roundQuot (((r.r1 : Int) - r.r0) * ((r.k + 1 : Nat) : Int)) r.marks).toNat : Nat) : Int) = _
    rw [Nat.cast_add, Nat.cast_one, Int.toNat_of_nonneg]
    omega
  · have hcast : ((r.k : Int) + 1) = r.marks := by omega
    rw [hcast]
    exact roundQuot_mul_self _ (ne_of_gt hmarks)

/-- The period of a rate in range (R11). -/
theorem perTick_between {r : Nat} (h : 1000 ≤ r) (h' : r ≤ 240000) : 416667 ≤ perTick r ∧ perTick r ≤ 100000000 := by
  rw [perTick_eq]
  constructor
  · rw [Nat.le_div_iff_mul_le (by omega)]
    omega
  · rw [← Nat.lt_succ_iff, Nat.div_lt_iff_lt_mul (by omega)]
    omega

theorem planCadence_free {c : Cadence} (a : Agreement) (h : c.source = .free) :
    planCadence c a =
      ⟨framePeriod (limit Config.minRate a.ceiling c.stepRate) a.floor, decide (a.ceiling < c.stepRate),
        framePeriod (limit Config.minRate a.ceiling c.stepRate) a.floor⟩ := by
  rw [planCadence, h]

theorem planCadence_ref {c : Cadence} (a : Agreement) (h : c.source = .ref) :
    planCadence c a = ⟨c.period.getD 0, false, c.period.getD 0 - c.period.getD 0 / 256⟩ := by
  rw [planCadence, h]

theorem beginPlan_free {c : Cadence} (a : Agreement) (now : Time) (h : c.source = .free) :
    c.beginPlan a now =
      { c with
        currentRate := limit Config.minRate a.ceiling c.stepRate
        ramp := c.steppedRamp
        planPeriod := (planCadence c a).period
        nextMark := some (after now (planCadence c a).period) } := by
  rw [Cadence.beginPlan, h]

theorem beginPlan_ref {c : Cadence} (a : Agreement) (now : Time) (h : c.source = .ref) :
    c.beginPlan a now = { c with planPeriod := (planCadence c a).period } := by
  rw [Cadence.beginPlan, h]

/-- Settles O20: the step of the ramp by its rounding, and the period by the bounds of the rate. -/
theorem planRatesAndPeriods : Obligations.PlanRatesAndPeriods := by
  refine ⟨fun c h => ⟨?_, ?_⟩, fun c r h hk => ?_, fun c a now hsource hlow hhigh hfloor r p hr hp => ?_⟩
  · rw [Cadence.stepRate, h]
    rfl
  · rw [Cadence.steppedRamp, h]
  · obtain ⟨q, ⟨hround, htie⟩, hrate, hbetween, hlast⟩ := Ramp.next_rate hk
    rw [Cadence.stepRate_ramp h, Cadence.steppedRamp_ramp h]
    have hq : (r.next.rate : Int) - r.r0 = q := by omega
    have habs : (((r.next.rate : Int) - r.r0) * r.marks - ((r.r1 : Int) - r.r0) * (r.k + 1)).natAbs =
        (((r.r1 : Int) - r.r0) * (r.k + 1) - q * r.marks).natAbs := by
      rw [hq, ← Int.natAbs_neg, neg_sub]
    refine ⟨by omega, by omega, by rw [habs]; simpa using hround, fun h2 => ?_, fun hmore => ?_, fun hend => ⟨?_, ?_⟩⟩
    · rw [habs] at h2
      simpa [hq, Int.natAbs_mul] using htie (by simpa using h2)
    · rw [if_neg (by omega)]
    · have := hlast hend
      omega
    · rw [if_pos (by omega)]
  · obtain rfl : r = limit Config.minRate a.ceiling c.stepRate := hr
    have hbounds : 1000 ≤ limit Config.minRate a.ceiling c.stepRate ∧ limit Config.minRate a.ceiling c.stepRate ≤ 240000 := by
      simp only [limit, Config.minRate]
      omega
    have hperiod := perTick_between hbounds.1 hbounds.2
    have hp' : p = max (perTick (limit Config.minRate a.ceiling c.stepRate)) a.floor := by
      rw [hp, planCadence_free a hsource]
      rfl
    refine ⟨by rw [hp', perTick_eq], by omega, by omega, hbounds.1, ?_, ?_⟩
    · rw [planCadence_free a hsource]
      exact decide_eq_true_iff
    · rw [beginPlan_free a now hsource, ← hp]
      rfl

/-! ## A locked or held reference -/

theorem refEdge_found {s : State} {w : RefWindow} {p : Nat} (href : s.cg.ref = .locked ∨ s.cg.ref = .holdover)
    (hw : s.cg.window = some w) (hp : s.cg.period = some p) :
    refEdge s = if w.holds s.timebase then attributeEdge w p s else s := by
  obtain h | h := href <;> rw [refEdge, h, hw, hp]

theorem RefWindow.holds_iff (w : RefWindow) (e : Time) : w.holds e = true ↔ (timeDiff e w.mark).natAbs ≤ w.half :=
  decide_eq_true_iff

theorem acceptsCandidate_iff (a : AgreementEngine) (p i : Nat) :
    acceptsCandidate a p i = true ↔
      200 * ((i : Int) - p).natAbs ≤ p ∧
        max 400000 (match a.agreement with | some a => a.floor | none => 400000) ≤ i ∧ i ≤ 100000000 ∧
        (2 * 10 ^ 11 + i) / (2 * i) ≤ match a.agreement with | some a => a.ceiling | none => 240000 := by
  rw [acceptsCandidate, Bool.and_eq_true, Bool.and_eq_true, closeTo_iff, decide_eq_true_iff, decide_eq_true_iff, perTick_eq,
    and_assoc, and_assoc]
  obtain ⟨frame, agreement, exclusion, reason⟩ := a
  cases agreement <;> rfl

/-- A locked reference measures from edge to edge (R20). -/
theorem updatedPeriod_locked {a : AgreementEngine} {c : Cadence} {prev : Time} (p : Nat) (e : Time) (href : c.ref = .locked)
    (hprev : c.lock.prevEdge = some prev) :
    updatedPeriod a c p e = if acceptsCandidate a p (e - prev).toNat then (e - prev).toNat else p := by
  rw [updatedPeriod, href, hprev] <;> rfl

/-- The first edge after a gap leaves the period (R20, R22). -/
theorem updatedPeriod_unmeasured {a : AgreementEngine} {c : Cadence} (p : Nat) (e : Time)
    (h : c.ref = .holdover ∨ c.lock.prevEdge = none) : updatedPeriod a c p e = p := by
  unfold updatedPeriod
  obtain h | h := h <;> rw [h]
  split <;> simp_all

/-- An attributed edge: the Cadence Generator's part, REF_BACK, and REF_STEP in the slot of the window's mark (R19 to R22). -/
theorem attributeEdge_eq (w : RefWindow) (p : Nat) (s : State) :
    attributeEdge w p s =
      { s with
        cg := s.cg.edgeTaken s.ae w p s.timebase
        rcp := if s.cg.ref = .holdover then { s.rcp with notices := addNotice s.rcp.notices .refBack } else s.rcp
        pe := if s.cg.ref = .holdover then
            (match w.event.bind MarkEvent.number with
              | some m => { s.pe with
                  window := s.pe.window.map fun slot => if slot.mark = m then { slot with refStep := true } else slot }
              | none => s.pe)
          else s.pe } := by
  unfold attributeEdge
  by_cases h : s.cg.ref = .holdover
  · simp only [h, decide_true, if_true, RefWindow.rollingNumber]
    cases w.event.bind MarkEvent.number <;> rfl
  · simp only [h, decide_false, if_false, Bool.false_eq_true]
    rfl

theorem edgeTaken_eq (a : AgreementEngine) (w : RefWindow) (p : Nat) (e : Time) (c : Cadence) :
    c.edgeTaken a w p e =
      { c with
        ref := .locked, period := some (updatedPeriod a c p e)
        lock := ⟨some e, 0, (decide (c.ref = .holdover) && w.event.isNone) || c.lock.stepOwed⟩
        nextMark := if w.event.isSome then some (correctedMark w.mark (w.periodUsed (updatedPeriod a c p e)) e) else c.nextMark
        window := some ⟨correctedMark w.mark (w.periodUsed (updatedPeriod a c p e)) e, updatedPeriod a c p e / 8, none⟩ } := by
  unfold Cadence.edgeTaken
  cases w.event <;> cases decide (c.ref = .holdover) <;> simp

theorem closeRefWindow_eq (w : RefWindow) (p : Nat) (s : State) :
    closeRefWindow w p s =
      { waitUntil (after w.mark w.half) s with
        cg := s.cg.closeWindow w p
        rcp := if s.cg.ref = .locked ∧ 1 ≤ s.cg.lock.empty then
            { s.rcp with notices := addNotice s.rcp.notices .refLost } else s.rcp } := by
  unfold closeRefWindow
  dsimp only
  rw [← Bool.decide_and]
  by_cases h : (waitUntil (after w.mark w.half) s).cg.ref = .locked ∧ 1 ≤ (waitUntil (after w.mark w.half) s).cg.lock.empty
  · rw [if_pos (decide_eq_true h), if_pos (show s.cg.ref = .locked ∧ 1 ≤ s.cg.lock.empty from h)]
    rfl
  · rw [if_neg (by rwa [decide_eq_true_iff]), if_neg (show ¬ (s.cg.ref = .locked ∧ 1 ≤ s.cg.lock.empty) from h)]
    rfl

theorem closeWindow_eq (w : RefWindow) (p : Nat) (c : Cadence) :
    c.closeWindow w p =
      { c with
        ref := if 1 ≤ c.lock.empty then .holdover else c.ref
        lock := { c.lock with prevEdge := none, empty := min (c.lock.empty + 1) 2 }
        nextMark := some (after w.mark p)
        window := some ⟨after w.mark p, p / 8, none⟩ } := by
  have h : min (c.lock.empty + 1) 2 = 2 ↔ 1 ≤ c.lock.empty := by omega
  simp only [Cadence.closeWindow, h]

/-- Settles O26: an edge outside the window, an attributed one, and the window's closing. -/
theorem lockedReference : Obligations.LockedReference := by
  intro s w p href hw hp
  have hedge : exec .refinEdge s = .next (if w.holds s.timebase then attributeEdge w p s else s) :=
    congrArg Host.Outcome.next (refEdge_found href hw hp)
  have hclose : exec .refWindowClose s = if w.event.isSome then .next (closeRefWindow w p s) else .next s := by
    simp only [exec, execRefWindowClose, hw, hp]
  refine ⟨fun hout => ?_, fun hin => ?_, fun hnone => ?_, fun hsome => ?_⟩
  · rw [hedge, if_neg]
    rw [RefWindow.holds_iff]
    exact Nat.not_le.mpr hout
  · rw [if_pos ((w.holds_iff _).2 hin), attributeEdge_eq] at hedge
    refine ⟨_, updatedPeriod s.ae s.cg p s.timebase,
      correctedMark w.mark (w.periodUsed (updatedPeriod s.ae s.cg p s.timebase)) s.timebase, hedge, ?_,
      updatedPeriod_unmeasured p _, ?_, edgeTaken_eq _ _ _ _ _, ?_, fun n => ?_, fun number hheld hnumber => ?_, fun h => ?_⟩
    · rintro prev i floor ceiling hlocked hprev rfl rfl rfl
      rw [updatedPeriod_locked p _ hlocked hprev]
      exact if_congr (acceptsCandidate_iff _ _ _) rfl rfl
    · rintro used c rfl rfl
      cases h : w.event <;> simp [RefWindow.periodUsed, correctedMark, limitAbs, h]
    · by_cases h : s.cg.ref = .holdover <;> simp [h]
    · by_cases h : s.cg.ref = .holdover <;> simp [h, hasNotice_addNotice]
    · simp only [hheld, if_true, hnumber]
      congr 1
      refine List.map_congr_left fun slot _ => ?_
      by_cases hm : slot.mark = number <;> simp [hm]
    · obtain h | h := h <;> simp [h]
  · rw [hclose, hnone]
    rfl
  · rw [if_pos hsome, closeRefWindow_eq] at hclose
    refine ⟨_, hclose, ?_, closeWindow_eq w p s.cg, fun n => ?_⟩
    · by_cases h : s.cg.ref = .locked ∧ 1 ≤ s.cg.lock.empty <;> simp only [h, if_true, if_false] <;> rfl
    · rw [← Bool.decide_and]
      by_cases h : s.cg.ref = .locked ∧ 1 ≤ s.cg.lock.empty
      · simp [h, hasNotice_addNotice]
      · simp only [h, if_false, decide_false, Bool.false_and, Bool.or_false]

end Sys2Proof.Machine
end

section
/-! PROOFS. The choice over the offers of both cameras (O37). -/

namespace Sys2Proof.Machine

/-! ## The agreement of a pair of offers -/

theorem readout_reverses (o : Orientation) (m : SensorMode) : m.readout (reverses o m) = m.usedReadout o := by
  cases o <;> cases h : m.reversed <;> simp [SensorMode.readout, reverses, SensorMode.usedReadout, h]

theorem scansUpward_iff (o : Orientation) (m : SensorMode) : scansUpward o m = true ↔ m.up o := by
  simp [scansUpward, SensorMode.up]

theorem reverses_iff (o : Orientation) (m : SensorMode) :
    reverses o m = true ↔ o = .reflected ∧ m.reversed.isSome = true := by
  simp [reverses]

theorem pairAgreement_floor (f : TakeFrame) (l r : Offer) : (pairAgreement f l r).floor = pairFloor f l r := by
  rw [pairFloor, ← readout_reverses, ← readout_reverses]
  rfl

theorem pairAgreement_scansUp (f : TakeFrame) (l r : Offer) (e : Eye) :
    (pairAgreement f l r).scansUp.get e = true ↔
      ((pairAgreement f l r).mode.get e).up (f.orientation.get e) := by
  cases e <;> exact scansUpward_iff _ _

theorem pairAgreement_reversed (f : TakeFrame) (l r : Offer) (e : Eye) :
    (pairAgreement f l r).reversed.get e = true ↔
      f.orientation.get e = .reflected ∧ ((pairAgreement f l r).mode.get e).reversed.isSome = true := by
  cases e <;> exact reverses_iff _ _

theorem pairAgreement_opposed (f : TakeFrame) (l r : Offer) :
    (pairAgreement f l r).opposed = true ↔ (pairAgreement f l r).scansUp.left ≠ (pairAgreement f l r).scansUp.right :=
  decide_eq_true_iff

theorem feasible_iff (f : TakeFrame) (exclusion : List (Nat × Nat)) (l r : Offer) :
    feasible f exclusion l r = true ↔ pairFeasible f exclusion l r := by
  have hopposed : (pairAgreement f l r).opposed = false ↔
      (l.mode.up f.orientation.left ↔ r.mode.up f.orientation.right) := by
    rw [← Bool.not_eq_true, pairAgreement_opposed, not_not, Bool.eq_iff_iff]
    exact iff_congr (pairAgreement_scansUp f l r .left) (pairAgreement_scansUp f l r .right)
  simp only [feasible, pairFeasible, Bool.and_eq_true, Bool.or_eq_true, decide_eq_true_eq, Bool.not_eq_true', hopposed,
    pairAgreement_floor, perTick_eq, List.contains_eq_mem, decide_eq_false_iff_not]
  tauto

theorem mem_feasiblePairs {f : TakeFrame} {exclusion : List (Nat × Nat)} {ls rs : List Offer} {a : Agreement} :
    a ∈ feasiblePairs f exclusion ls rs ↔
      ∃ l ∈ ls, ∃ r ∈ rs, pairFeasible f exclusion l r ∧ a = pairAgreement f l r := by
  simp only [feasiblePairs, List.mem_flatMap, List.mem_map, List.mem_filter, feasible_iff]
  constructor
  · rintro ⟨l, hl, r, ⟨hr, hf⟩, rfl⟩
    exact ⟨l, hl, r, hr, hf, rfl⟩
  · rintro ⟨l, hl, r, hr, hf, rfl⟩
    exact ⟨l, hl, r, ⟨hr, hf⟩, rfl⟩

/-- The row delay of the first row and of the last (R54). -/
theorem rowDelay_ends (readout : Nat) (up : Bool) :
    rowDelay readout up 0 = (if up then readout else 0) ∧ rowDelay readout up 1024 = if up then 0 else readout := by
  cases up <;> simp [rowDelay]

theorem choiceOffsets_get (t : PerEye Nat) (e : Eye) :
    ((choiceOffsets t).get e : Int) = max (t.left : Int) t.right - t.get e := by
  cases e <;> simp [choiceOffsets]

/-- The skew of a pair by R54: the larger difference of the two edges, with both anchors met. -/
theorem pairAgreement_skew (f : TakeFrame) (l r : Offer) (time lead trig first last : Eye → Int)
    (htime : ∀ e, time e = (((pairAgreement f l r).mode.get e).usedReadout (f.orientation.get e) : Nat))
    (hlead : ∀ e, lead e =
      time e * (if (pairAgreement f l r).scansUp.get e then 1024 - (f.anchor : Int) else f.anchor) / 1024)
    (htrig : ∀ e, trig e = max (lead .left) (lead .right) - lead e)
    (hfirst : ∀ e, first e = if (pairAgreement f l r).scansUp.get e then time e else 0)
    (hlast : ∀ e, last e = if (pairAgreement f l r).scansUp.get e then 0 else time e) (hanchor : f.anchor ≤ 1024) :
    ((pairAgreement f l r).skew : Int) = max |(trig .left + first .left) - (trig .right + first .right)|
      |(trig .left + last .left) - (trig .right + last .right)| := by
  obtain ⟨readout, hreadout⟩ : ∃ p : PerEye Nat, p =
      .of fun e => ((pairAgreement f l r).mode.get e).readout ((pairAgreement f l r).reversed.get e) := ⟨_, rfl⟩
  obtain ⟨offsets, hoffsets⟩ : ∃ p : PerEye Nat, p =
      .of fun e => anchorOffset (readout.get e) ((pairAgreement f l r).scansUp.get e) f.anchor := ⟨_, rfl⟩
  have hskew : (pairAgreement f l r).skew =
      edgeSkew (edgeDifference (choiceOffsets offsets) readout (pairAgreement f l r).scansUp 0)
        (edgeDifference (choiceOffsets offsets) readout (pairAgreement f l r).scansUp 1024) := by
    rw [hoffsets, hreadout]
    rfl
  have htime' : ∀ e, time e = (readout.get e : Int) := fun e => by
    rw [htime, hreadout, PerEye_get_of, ← readout_reverses]
    cases e <;> rfl
  have hlead' : ∀ e, lead e = (offsets.get e : Int) := fun e => by
    rw [hlead, htime', hoffsets, PerEye_get_of, anchorOffset, anchorHeight]
    split <;> push_cast [hanchor] <;> rfl
  have htrig' : ∀ e, trig e = ((choiceOffsets offsets).get e : Int) := fun e => by
    rw [htrig, choiceOffsets_get, hlead', hlead', hlead']
    rfl
  have hfirst' : ∀ e, first e = (rowDelay (readout.get e) ((pairAgreement f l r).scansUp.get e) 0 : Int) := fun e => by
    rw [hfirst, htime', (rowDelay_ends _ _).1]
    split <;> simp
  have hlast' : ∀ e, last e = (rowDelay (readout.get e) ((pairAgreement f l r).scansUp.get e) 1024 : Int) := fun e => by
    rw [hlast, htime', (rowDelay_ends _ _).2]
    split <;> simp
  rw [hskew, edgeSkew, Nat.cast_max, Int.natCast_natAbs, Int.natCast_natAbs]
  simp only [htrig', hfirst', hlast', edgeDifference]
  rfl

/-! ## The order of preference -/

/-- `a` does not stand after `b` in the order of R55. -/
def Agreement.notAfter (a b : Agreement) : Prop :=
  a.skew < b.skew ∨ (a.skew = b.skew ∧ (b.ceiling < a.ceiling ∨ (a.ceiling = b.ceiling ∧
    (a.index.left < b.index.left ∨ (a.index.left = b.index.left ∧ a.index.right ≤ b.index.right)))))

theorem Agreement.notAfter_refl (a : Agreement) : a.notAfter a :=
  .inr ⟨rfl, .inr ⟨rfl, .inr ⟨rfl, le_refl _⟩⟩⟩

theorem Agreement.notAfter_trans {a b c : Agreement} (h : a.notAfter b) (h' : b.notAfter c) : a.notAfter c := by
  unfold Agreement.notAfter at *
  omega

theorem notAfter_of_preferred {a b : Agreement} (h : preferred a b = true) : a.notAfter b := by
  unfold preferred at h
  unfold Agreement.notAfter
  split at h
  · exact .inl (by simpa using h)
  · split at h
    · simp only [decide_eq_true_eq] at h
      omega
    · split at h <;> simp only [decide_eq_true_eq] at h <;> omega

theorem notAfter_of_not_preferred {a b : Agreement} (h : ¬ preferred b a = true) : a.notAfter b := by
  unfold preferred at h
  unfold Agreement.notAfter
  split at h
  · simp only [decide_eq_true_eq] at h
    omega
  · split at h
    · simp only [decide_eq_true_eq] at h
      omega
    · split at h <;> simp only [decide_eq_true_eq] at h <;> omega

theorem bestOf_eq_none {l : List Agreement} : bestOf l = none ↔ l = [] := by
  cases l with
  | nil => simp [bestOf]
  | cons a rest =>
    simp only [bestOf]
    split
    · simp
    · split <;> simp

/-- The best of a list is in it, and nothing in it stands before it. -/
theorem bestOf_eq_some {l : List Agreement} {a : Agreement} (h : bestOf l = some a) : a ∈ l ∧ ∀ b ∈ l, a.notAfter b := by
  induction l generalizing a with
  | nil => cases h
  | cons x rest ih =>
    simp only [bestOf] at h
    cases hrest : bestOf rest with
    | none =>
      obtain rfl := bestOf_eq_none.1 hrest
      obtain rfl : x = a := by simpa [hrest] using h
      simpa using x.notAfter_refl
    | some y =>
      obtain ⟨hmem, hbest⟩ := ih hrest
      rw [hrest] at h
      by_cases hp : preferred y x = true
      · obtain rfl : y = a := by simpa [hp] using h
        exact ⟨List.mem_cons_of_mem _ hmem, List.forall_mem_cons.2 ⟨notAfter_of_preferred hp, hbest⟩⟩
      · obtain rfl : x = a := by simpa [hp] using h
        have hx : x.notAfter y := notAfter_of_not_preferred hp
        exact ⟨List.mem_cons_self, List.forall_mem_cons.2 ⟨x.notAfter_refl, fun b hb => Agreement.notAfter_trans hx (hbest b hb)⟩⟩

/-- A floor within the period of a rate in range leaves a ceiling that reaches the rate (R53). -/
theorem le_perTick_of_le_perTick {rate floor : Nat} (hrate : rateInRange rate) (hfloor : 0 < floor) (h : floor ≤ perTick rate) :
    rate ≤ perTick floor := by
  obtain ⟨hlow, hhigh⟩ := hrate
  rw [perTick_eq, Nat.le_div_iff_mul_le (by omega)] at *
  obtain hle | hlt := le_or_gt rate floor
  · nlinarith
  · nlinarith

/-- Settles O37: the choice is the best of the feasible pairs. -/
theorem choiceTakesPreferredPair : Obligations.ChoiceTakesPreferredPair := by
  intro f exclusion ls rs
  refine ⟨?_, fun a h => ?_⟩
  · rw [choose, bestOf_eq_none, List.eq_nil_iff_forall_not_mem]
    constructor
    · intro h l hl r hr hf
      exact h _ (mem_feasiblePairs.2 ⟨l, hl, r, hr, hf, rfl⟩)
    · rintro h a ha
      obtain ⟨l, hl, r, hr, hf, -⟩ := mem_feasiblePairs.1 ha
      exact h l hl r hr hf
  · obtain ⟨hmem, hbest⟩ := bestOf_eq_some h
    refine ⟨?_, ?_, fun hrate hfloor => ?_⟩
    · obtain ⟨l, hl, r, hr, hf, rfl⟩ := mem_feasiblePairs.1 hmem
      exact ⟨l, hl, r, hr, hf, rfl, rfl, rfl, pairAgreement_floor f l r, rfl,
        fun e => ⟨pairAgreement_scansUp f l r e, pairAgreement_reversed f l r e⟩, pairAgreement_opposed f l r,
        pairAgreement_skew f l r⟩
    · rintro l hl r hr hf b rfl
      exact hbest _ (mem_feasiblePairs.2 ⟨l, hl, r, hr, hf, rfl⟩)
    · obtain ⟨l, hl, r, hr, ⟨-, -, hmax, hperiod, -⟩, rfl⟩ := mem_feasiblePairs.1 hmem
      exact le_min (le_min hmax.1 hmax.2)
        (le_perTick_of_le_perTick hrate hfloor ((pairAgreement_floor f l r).le.trans hperiod))

end Sys2Proof.Machine
end

section
/-! PROOFS. What placing the eyes does and leaves: the choice, the waits, and the requests and reports that run the choice
(O36, O40). -/

namespace Sys2Proof.Machine

theorem State.eq_of_fields {s t : State} (htime : s.timebase = t.timebase) (hcg : s.cg = t.cg) (heyes : ∀ e, s.eye e = t.eye e)
    (hae : s.ae = t.ae) (htp : s.tp = t.tp) (hlts : s.lts = t.lts) (hlme : s.lme = t.lme) (hpe : s.pe = t.pe)
    (hpq : s.pq = t.pq) (hrcp : s.rcp = t.rcp) (hresets : s.resets = t.resets) (hpending : s.pending = t.pending) : s = t := by
  have hl := heyes .left
  have hr := heyes .right
  obtain ⟨_, _, ⟨_, _⟩, _, _, _, _, _, _, _, _, _⟩ := s
  obtain ⟨_, _, ⟨_, _⟩, _, _, _, _, _, _, _, _, _⟩ := t
  obtain rfl : _ = _ := hl
  obtain rfl : _ = _ := hr
  simp only at htime hcg hae htp hlts hlme hpe hpq hrcp hresets hpending
  subst htime hcg hae htp hlts hlme hpe hpq hrcp hresets hpending
  rfl

/-! ## What placing leaves -/

/-- `q` is the port `p` with another state and directive, and nothing else changed but the mark of a write and a TRIG line
that an eye outside the take holds low. -/
def EyePort.placedAs (p q : EyePort) : Prop :=
  q = { p with state := q.state, buffer := q.buffer, fresh := q.fresh, txn := q.txn, trig := q.trig }

theorem EyePort.placedAs_refl (p : EyePort) : p.placedAs p := rfl

theorem EyePort.placedAs.trans {p q r : EyePort} (h : p.placedAs q) (h' : q.placedAs r) : p.placedAs r := by
  unfold EyePort.placedAs at *
  rw [h', h]

/-- `t` is `s` with eyes placed: their states and directives, the agreement record, the reasons of the waits, the pulses of
eyes that left the take and the notices differ, and nothing else. -/
def State.placedAs (s t : State) : Prop :=
  t = { s with
    eyes := t.eyes
    ae := { s.ae with agreement := t.ae.agreement, reason := t.ae.reason }
    tp := { s.tp with pulses := t.tp.pulses }
    rcp := { s.rcp with notices := t.rcp.notices } } ∧
  ∀ e, (s.eye e).placedAs (t.eye e)

theorem State.placedAs_refl (s : State) : s.placedAs s := ⟨rfl, fun _ => rfl⟩

theorem State.placedAs.trans {s t u : State} (h : s.placedAs t) (h' : t.placedAs u) : s.placedAs u := by
  refine ⟨?_, fun e => (h.2 e).trans (h'.2 e)⟩
  have h1 := h.1
  have h2 := h'.1
  rw [h1] at h2
  exact h2

theorem raise_placedAs (n : Notice) (s : State) : s.placedAs (raise n s) := ⟨rfl, fun _ => rfl⟩

theorem setAgreement_placedAs (a : Option Agreement) (s : State) : s.placedAs (setAgreement a s) := ⟨rfl, fun _ => rfl⟩

theorem writeDirective_placedAs (e : Eye) (d : Directive) (s : State) : s.placedAs (writeDirective e d s) := by
  refine ⟨rfl, fun e' => ?_⟩
  rw [writeDirective_eye]
  split
  · next h => rw [h]; rfl
  · rfl

theorem setEyeState_placedAs (e : Eye) (st : EyeState) (s : State) : s.placedAs (setEyeState e st s) := by
  refine ⟨?_, fun e' => ?_⟩
  · unfold setEyeState
    dsimp only
    split <;> rfl
  · rw [setEyeState_eye]
    split
    · next h => rw [h]; rfl
    · rfl

theorem waitEye_placedAs (e : Eye) (st : EyeState) (r : WaitReason) (s : State) : s.placedAs (waitEye e st r s) := by
  refine (setEyeState_placedAs e st s).trans (.trans ?_ (writeDirective_placedAs e (.wait r) _))
  exact ⟨rfl, fun _ => rfl⟩

theorem proposeEye_placedAs (e : Eye) (a : Agreement) (s : State) : s.placedAs (proposeEye e a s) :=
  (setEyeState_placedAs e .proposed s).trans (writeDirective_placedAs e _ _)

theorem placeEqual_placedAs (cause : Option Eye) (a : Agreement) (e : Eye) (s : State) :
    s.placedAs (placeEqual cause a e s) := by
  unfold placeEqual
  (repeat' split)
  · exact writeDirective_placedAs e _ s
  · exact s.placedAs_refl
  · exact proposeEye_placedAs e a s

theorem placeChoice_placedAs (cause : Option Eye) (outcome : Option Agreement) (s : State) :
    s.placedAs (placeChoice cause outcome s) := by
  cases outcome with
  | none =>
    exact (setAgreement_placedAs none s).trans ((waitEye_placedAs .left _ _ _).trans
      ((waitEye_placedAs .right _ _ _).trans (raise_placedAs _ _)))
  | some a =>
    rw [placeChoice_some]
    split
    · exact (setAgreement_placedAs _ s).trans ((placeEqual_placedAs cause a .left _).trans (placeEqual_placedAs cause a .right _))
    · exact (setAgreement_placedAs _ s).trans ((proposeEye_placedAs .left a _).trans (proposeEye_placedAs .right a _))

theorem awaitPeer_placedAs (e : Eye) (s : State) : s.placedAs (awaitPeer e s) :=
  (setAgreement_placedAs none s).trans (waitEye_placedAs e _ _ _)

theorem runChoice_placedAs (cause : Option Eye) (s : State) : s.placedAs (runChoice cause s) := by
  unfold runChoice
  split
  · exact placeChoice_placedAs cause _ s
  · exact awaitPeer_placedAs .left s
  · exact awaitPeer_placedAs .right s
  · exact setAgreement_placedAs none s

theorem partnerWaits_placedAs (e : Eye) (s : State) : s.placedAs (partnerWaits e s) := by
  unfold partnerWaits
  (repeat' split)
  · exact waitEye_placedAs e _ _ s
  · exact writeDirective_placedAs e _ s
  · exact s.placedAs_refl

/-- The blocks that placing changes. -/
theorem State.placedAs.rest {s t : State} (h : s.placedAs t) :
    t = { s with eyes := t.eyes, ae := t.ae, tp := t.tp, rcp := { s.rcp with notices := t.rcp.notices } } := by
  obtain ⟨eyes, heyes⟩ : ∃ x, x = t.eyes := ⟨_, rfl⟩
  obtain ⟨ae, hae⟩ : ∃ x, x = t.ae := ⟨_, rfl⟩
  obtain ⟨tp, htp⟩ : ∃ x, x = t.tp := ⟨_, rfl⟩
  obtain ⟨rcp, hrcp⟩ : ∃ x, x = t.rcp.notices := ⟨_, rfl⟩
  have ht := h.1
  rw [← heyes, ← hrcp] at ht
  rw [← heyes, ← hae, ← htp, ← hrcp, ht]
  congr 1
  · rw [hae, ht]
  · rw [htp, ht]

/-- What of the ports placing leaves. -/
theorem State.placedAs.port {s t : State} (h : s.placedAs t) (e : Eye) :
    (t.eye e).enabled = (s.eye e).enabled ∧ (t.eye e).caps = (s.eye e).caps ∧ (t.eye e).slot = (s.eye e).slot ∧
      (t.eye e).lost = (s.eye e).lost ∧ (t.eye e).takenFull = (s.eye e).takenFull := by
  have he := h.2 e
  rw [EyePort.placedAs] at he
  rw [he]
  exact ⟨rfl, rfl, rfl, rfl, rfl⟩

/-- What of the blocks placing leaves. -/
theorem State.placedAs.blocks {s t : State} (h : s.placedAs t) :
    t.timebase = s.timebase ∧ t.cg = s.cg ∧ t.ae.frame = s.ae.frame ∧ t.ae.exclusion = s.ae.exclusion ∧ t.lts = s.lts ∧
      t.lme = s.lme ∧ t.pe = s.pe ∧ t.pq = s.pq := by
  have ht := h.1
  rw [ht]
  exact ⟨rfl, rfl, rfl, rfl, rfl, rfl, rfl, rfl⟩

/-! ## Where placing puts the eyes -/

theorem EyePort.placed_congr {p q : EyePort} {st : EyeState} {d : Directive} (h : p.placed st d) (hstate : q.state = p.state)
    (hbuffer : q.buffer = p.buffer) (hfresh : q.fresh = p.fresh) : q.placed st d :=
  ⟨hstate.trans h.1, hbuffer.trans h.2.1, hfresh.trans h.2.2⟩

theorem waits_of_eq {s t : State} {e : Eye} {st : EyeState} {r : WaitReason} (h : s.waits e st r) (heye : t.eye e = s.eye e)
    (hreason : t.ae.reason.get e = s.ae.reason.get e) : t.waits e st r := by
  unfold State.waits
  rw [heye, hreason]
  exact h

theorem waitEye_waits (e : Eye) (st : EyeState) (r : WaitReason) (s : State) : (waitEye e st r s).waits e st r := by
  unfold State.waits
  rw [waitEye_eye, if_pos rfl, waitEye_ae]
  exact ⟨⟨rfl, rfl, rfl⟩, PerEye_get_set_same _ _ _⟩

theorem waitEye_eye_other (e : Eye) (st : EyeState) (r : WaitReason) (s : State) :
    (waitEye e st r s).eye e.other = s.eye e.other ∧ (waitEye e st r s).ae.reason.get e.other = s.ae.reason.get e.other := by
  rw [waitEye_eye, if_neg (Eye_other_ne e), waitEye_ae]
  exact ⟨rfl, PerEye_get_set_other _ _ _⟩

theorem waitEye_waits_other {e : Eye} {st : EyeState} {r : WaitReason} {s : State} (e' : Eye) (st' : EyeState) (r' : WaitReason)
    (hne : e ≠ e') (h : s.waits e st r) : (waitEye e' st' r' s).waits e st r := by
  obtain rfl := Eye_ne_iff.1 hne
  exact waits_of_eq h (waitEye_eye_other e' st' r' s).1 (waitEye_eye_other e' st' r' s).2

theorem proposeEye_placed (e : Eye) (a : Agreement) (s : State) :
    ((proposeEye e a s).eye e).placed .proposed (.agree (a.index.get e) (a.reversed.get e)) := by
  rw [proposeEye_eye, if_pos rfl]
  exact ⟨rfl, rfl, rfl⟩

theorem proposeEye_eye_other (e : Eye) (a : Agreement) (s : State) : (proposeEye e a s).eye e.other = s.eye e.other := by
  rw [proposeEye_eye, if_neg (Eye_other_ne e)]

theorem placeEqual_eye_same (cause : Option Eye) (a : Agreement) (e : Eye) (s : State) :
    ((s.eye e).state = .agreed →
      ((placeEqual cause a e s).eye e).state = .agreed ∧
      (cause = some e → ((placeEqual cause a e s).eye e).placed .agreed .halt) ∧
      (cause ≠ some e → (placeEqual cause a e s).eye e = s.eye e)) ∧
    ((s.eye e).state ≠ .agreed →
      ((placeEqual cause a e s).eye e).placed .proposed (.agree (a.index.get e) (a.reversed.get e))) := by
  unfold placeEqual
  by_cases h : (s.eye e).state = .agreed
  · rw [if_pos h]
    refine ⟨fun _ => ?_, fun hn => absurd h hn⟩
    by_cases hc : cause = some e
    · rw [if_pos hc, writeDirective_eye, if_pos rfl]
      exact ⟨h, fun _ => ⟨h, rfl, rfl⟩, fun hn => absurd hc hn⟩
    · rw [if_neg hc]
      exact ⟨h, fun hn => absurd hn hc, fun _ => rfl⟩
  · rw [if_neg h]
    exact ⟨fun hn => absurd hn h, fun _ => proposeEye_placed e a s⟩

theorem equalChoice_iff (s : State) (a : Agreement) :
    s.equalChoice a = true ↔ ∃ b, s.ae.agreement = some b ∧ b.index = a.index ∧ b.mode = a.mode := by
  unfold State.equalChoice
  cases s.ae.agreement with
  | none => simp
  | some b =>
    simp only [sameChoice, Bool.and_eq_true, decide_eq_true_eq, Option.some.injEq, exists_eq_left']
    exact and_congr eq_comm eq_comm

/-- The outcome of a choice places both eyes (R56). -/
theorem placeChoice_choicePlaced (cause : Option Eye) (outcome : Option Agreement) (s : State) :
    choicePlaced cause outcome s (placeChoice cause outcome s) := by
  cases outcome with
  | none =>
    refine ⟨?_, hasNotice_raise _ _, fun e => ?_⟩
    · change (waitEye .right .held .noCommonMode (waitEye .left .held .noCommonMode (setAgreement none s))).ae.agreement = none
      rw [waitEye_ae, waitEye_ae]
      rfl
    refine waits_of_eq (s := waitEye .right .held .noCommonMode (waitEye .left .held .noCommonMode (setAgreement none s))) ?_ rfl rfl
    cases e with
    | left => exact waitEye_waits_other .right _ _ (by decide) (waitEye_waits .left _ _ _)
    | right => exact waitEye_waits .right _ _ _
  | some a =>
    rw [placeChoice_some]
    by_cases hequal : s.equalChoice a = true
    · rw [if_pos hequal]
      refine ⟨by rw [(placeEqual_frame _ _ _ _).2.2.1, (placeEqual_frame _ _ _ _).2.2.1]; rfl, fun e => ?_⟩
      have heye : ∃ u, (placeEqual cause a .right (placeEqual cause a .left (setAgreement (some a) s))).eye e =
          (placeEqual cause a e u).eye e ∧ u.eye e = s.eye e := by
        cases e with
        | left => exact ⟨_, placeEqual_eye_other cause a .right _, rfl⟩
        | right => exact ⟨_, rfl, placeEqual_eye_other cause a .left _⟩
      obtain ⟨u, hport, hu⟩ := heye
      have hsame := placeEqual_eye_same cause a e u
      rw [hu] at hsame
      rw [hport]
      refine ⟨fun ⟨_, hagreed⟩ => ?_, fun hn => ?_⟩
      · obtain ⟨hstate, hhalt, hkept⟩ := hsame.1 hagreed
        exact ⟨hstate, hhalt, fun hc => by rw [hkept hc]; exact ⟨rfl, rfl⟩⟩
      · exact hsame.2 fun hagreed => hn ⟨(equalChoice_iff s a).1 hequal, hagreed⟩
    · rw [if_neg hequal]
      refine ⟨by rw [(proposeEye_frame _ _ _).2.2.1, (proposeEye_frame _ _ _).2.2.1]; rfl, fun e => ⟨fun ⟨hb, _⟩ => absurd ((equalChoice_iff s a).2 hb) hequal, fun _ => ?_⟩⟩
      cases e with
      | left =>
        rw [show Eye.left = Eye.right.other from rfl, proposeEye_eye_other .right]
        exact proposeEye_placed .left a _
      | right => exact proposeEye_placed .right a _

/-- The placing looks at the agreement record, and at each eye's state and directive, alone. -/
theorem choicePlaced_congr {cause : Option Eye} {outcome : Option Agreement} {s s' t t' : State}
    (h : choicePlaced cause outcome s t) (hs : s'.ae.agreement = s.ae.agreement)
    (hport : ∀ e, (s'.eye e).state = (s.eye e).state ∧ (s'.eye e).buffer = (s.eye e).buffer ∧
      (s'.eye e).fresh = (s.eye e).fresh)
    (ht : t'.ae = t.ae) (hnotices : t'.rcp.notices = t.rcp.notices) (heye : ∀ e, t'.eye e = t.eye e) :
    choicePlaced cause outcome s' t' := by
  refine ⟨by rw [ht]; exact h.1, ?_⟩
  cases outcome with
  | none => exact ⟨by rw [hnotices]; exact h.2.1, fun e => waits_of_eq (h.2.2 e) (heye e) (by rw [ht])⟩
  | some a =>
    intro e
    simp only [heye, (hport _).1, (hport _).2.1, (hport _).2.2, hs]
    exact h.2 e

theorem runChoice_both {l r : Caps} (cause : Option Eye) {s : State} (hl : s.eyes.left.caps = some l)
    (hr : s.eyes.right.caps = some r) :
    runChoice cause s = placeChoice cause (choose s.ae.frame s.ae.exclusion l.offers r.offers) s := by
  rw [runChoice, hl, hr]

theorem runChoice_alone {e : Eye} (cause : Option Eye) {s : State} (h : (s.eye e).caps.isSome = true)
    (hother : (s.eye e.other).caps = none) : runChoice cause s = awaitPeer e s := by
  obtain ⟨c, hc⟩ := Option.isSome_iff_exists.1 h
  cases e with
  | left => rw [runChoice, show s.eyes.left.caps = some c from hc, show s.eyes.right.caps = none from hother]
  | right => rw [runChoice, show s.eyes.right.caps = some c from hc, show s.eyes.left.caps = none from hother]

theorem runChoice_none (cause : Option Eye) {s : State} (hl : s.eyes.left.caps = none) (hr : s.eyes.right.caps = none) :
    runChoice cause s = setAgreement none s := by
  rw [runChoice, hl, hr]

theorem awaitPeer_agreement (e : Eye) (s : State) : (awaitPeer e s).ae.agreement = none := by
  rw [awaitPeer, waitEye_ae]
  rfl

theorem awaitPeer_waits (e : Eye) (s : State) : (awaitPeer e s).waits e .held .awaitPeer := waitEye_waits e _ _ _

theorem awaitPeer_eye_other (e : Eye) (s : State) : (awaitPeer e s).eye e.other = s.eye e.other := (waitEye_eye_other e _ _ _).1

/-! ## PROFILE -/

theorem toNat_le_one_iff (b : Byte) : b.toNat ≤ 1 ↔ b = 0 ∨ b = 1 := by
  constructor
  · intro h
    obtain h | h := Nat.le_one_iff_eq_zero_or_eq_one.1 h
    · exact .inl (BitVec.eq_of_toNat_eq h)
    · exact .inr (BitVec.eq_of_toNat_eq h)
  · rintro (rfl | rfl) <;> decide

theorem orientationCode_eq (b : Byte) :
    orientationCode b = if b.toNat ≤ 1 then some (if b = 1 then .reflected else .direct) else none := by
  simp only [orientationCode, toNat_le_one_iff]
  by_cases h0 : b = 0 <;> by_cases h1 : b = 1 <;> simp_all

theorem yesNo_eq (b : Byte) : yesNo b = if b.toNat ≤ 1 then some (decide (b = 1)) else none := by
  simp only [yesNo, toNat_le_one_iff]
  by_cases h0 : b = 0 <;> by_cases h1 : b = 1 <;> simp_all

/-- The take frame that a PROFILE carries (R48, R180). -/
def profileFrame (p : RawProfile) : TakeFrame where
  orientation := ⟨if p.orientationL = 1 then .reflected else .direct, if p.orientationR = 1 then .reflected else .direct⟩
  geometry := p.geometry.toNat
  rateNeeded := p.rateNeeded.toNat
  opposedAccepted := decide (p.opposed = 1)
  anchor := p.anchor.toNat
  depth := p.depth.toNat
  skewLimit := p.skewLimit.toNat
  tolerance := ⟨p.tolFocus.toNat, p.tolIris.toNat, p.tolZoom.toNat⟩

theorem readTakeFrame_inRange {p : RawProfile} (h : profileInRange p) : readTakeFrame p = some (profileFrame p) := by
  obtain ⟨hl, hr, ho, ⟨h1, h2⟩, h3, ⟨h4, h5⟩, h6⟩ := h
  rw [readTakeFrame, orientationCode_eq, orientationCode_eq, yesNo_eq, if_pos hl, if_pos hr, if_pos ho]
  exact if_pos ⟨h1, h2, h3, h4, h5, h6⟩

theorem readTakeFrame_outOfRange {p : RawProfile} (h : ¬ profileInRange p) : readTakeFrame p = none := by
  rw [readTakeFrame, orientationCode_eq, orientationCode_eq, yesNo_eq]
  by_cases hl : p.orientationL.toNat ≤ 1
  · by_cases hr : p.orientationR.toNat ≤ 1
    · by_cases ho : p.opposed.toNat ≤ 1
      · rw [if_pos hl, if_pos hr, if_pos ho]
        exact if_neg fun ⟨h1, h2, h3, h4, h5, h6⟩ => h ⟨hl, hr, ho, ⟨h1, h2⟩, h3, ⟨h4, h5⟩, h6⟩
      · rw [if_pos hl, if_pos hr, if_neg ho]
    · rw [if_pos hl, if_neg hr]
  · rw [if_neg hl]

/-- Settles O36: PROFILE is refused, or places the eyes by the choice of its frame. -/
theorem profileRequests : Obligations.ProfileRequests := by
  intro s p pad hs
  refine ⟨fun hrig => ?_, fun hrig hout => ?_, fun hrig hin => ?_⟩
  · rw [exec_profile_serves p pad s hs, decideProfile, if_pos (by simpa using hrig)]
    rfl
  · rw [exec_profile_serves p pad s hs, decideProfile, if_neg (by simpa using hrig), readTakeFrame_outOfRange hout]
    rfl
  · obtain ⟨u, hu⟩ : ∃ u, u = clearExclusion ((s.rcpClosed (requestBits (.profile p) pad)).mapAe fun a =>
        { a with frame := profileFrame p }) := ⟨_, rfl⟩
    have hexec : exec (.profile p pad) s = .next (answer 0x61 .done (runChoice none u)) := by
      rw [exec_profile_serves p pad s hs, decideProfile, if_neg (by simpa using hrig), readTakeFrame_inRange hin, hu]
    have hplaced := runChoice_placedAs none u
    have heye : ∀ e, u.eye e = s.eye e := fun e => by rw [hu]; rfl
    refine ⟨_, hexec, ?_, ?_, ?_, fun l r hl hr => ?_, fun e hcaps hother => ?_, fun hl hr => ?_⟩
    · exact (congrArg (answer 0x61 .done) hplaced.rest).trans (by rw [hu]; rfl)
    · exact hplaced.blocks.2.2.1.trans (by rw [hu]; rfl)
    · exact hplaced.blocks.2.2.2.1.trans (by rw [hu]; rfl)
    · have hl' : u.eyes.left.caps = some l := by rw [hu]; exact hl
      have hr' : u.eyes.right.caps = some r := by rw [hu]; exact hr
      have hframe : (answer 0x61 .done (runChoice none u)).ae.frame = u.ae.frame := hplaced.blocks.2.2.1
      have hexclusion : u.ae.exclusion = [] := by rw [hu]; rfl
      rw [hframe, ← hexclusion]
      rw [runChoice_both none hl' hr']
      exact choicePlaced_congr (placeChoice_choicePlaced none _ u) (by rw [hu]; rfl) (fun e => by simp [heye]) rfl rfl fun e => rfl
    · rw [runChoice_alone none (by rwa [heye]) (by rwa [heye])]
      exact ⟨awaitPeer_agreement e u, awaitPeer_waits e u, (awaitPeer_eye_other e u).trans (heye _)⟩
    · rw [runChoice_none none (by rw [hu]; exact hl) (by rw [hu]; exact hr)]
      exact ⟨rfl, by rw [hu]; rfl⟩

/-! ## ACCEPT and REFUSE -/

theorem State.proposedIndex_eq_some_iff (s : State) (e : Eye) (k : Nat) :
    s.proposedIndex e = some k ↔ (s.eye e).state = .proposed ∧ ∃ a, s.ae.agreement = some a ∧ a.index.get e = k := by
  unfold State.proposedIndex
  split <;> simp_all

/-- A choice never takes an excluded pair (R53). -/
theorem choose_not_excluded {f : TakeFrame} {exclusion : List (Nat × Nat)} {ls rs : List Offer} {a : Agreement}
    (h : choose f exclusion ls rs = some a) : (a.index.left, a.index.right) ∉ exclusion := by
  obtain ⟨l, -, r, -, ⟨-, hexcluded, -⟩, rfl⟩ := mem_feasiblePairs.1 (bestOf_eq_some h).1
  exact hexcluded

theorem countLost_emptySlot (e : Eye) (s : State) :
    countLost e (emptySlot e s) = { s with eyes := s.eyes.set e { s.eye e with slot := none, lost := (s.eye e).lostNext } } := by
  rw [countLost, emptySlot, mapEye_mapEye, mapEye_eq, EyePort.countLost_frame, EyePort.countLost_lost_eq_lostNext]
  rfl

/-- Settles O40: the report that names the AGREE in force, in each state of the rig, and any other. -/
theorem acceptsAndRefuses : Obligations.AcceptsAndRefuses := by
  intro s e index refuse hslot c hc
  have hexec : exec c s = .next (if refuse then takeRefuse e index (emptySlot e s) else takeAccept e index (emptySlot e s)) := by
    subst hc
    cases refuse
    · simp only [Bool.false_eq_true, if_false] at hslot ⊢
      simp [exec, execAcceptTaken, hslot]
    · simp only [if_true] at hslot ⊢
      simp [exec, execRefuseTaken, hslot]
  have hstate : ((emptySlot e s).eye e).state = (s.eye e).state := by
    rw [emptySlot_eye, if_pos rfl]
  have hproposed : (emptySlot e s).proposedIndex e = some index.toNat ↔
      (s.eye e).state = .proposed ∧ ∃ a, s.ae.agreement = some a ∧ a.index.get e = index.toNat := by
    rw [State.proposedIndex_eq_some_iff, hstate]
    rfl
  refine ⟨fun hn => ?_, fun a hp ha hindex => ?_⟩
  · rw [hexec, takeRefuse, takeAccept, if_neg (mt hproposed.1 hn), if_neg (mt hproposed.1 hn), ite_self, countLost_emptySlot]
  · have hin := hproposed.2 ⟨hp, a, ha, hindex⟩
    refine ⟨fun hr => ?_, fun hr hrig => ?_, fun hr hrig l r hl hr' => ?_⟩
    · rw [hexec, if_neg (by simp [hr]), takeAccept, if_pos hin]
      congr 1
      cases e <;> rfl
    · have hrig' : (emptySlot e s).cg.rig ≠ .setup := hrig
      rw [takeRefuse, if_pos hin, if_neg hrig', if_pos hr] at hexec
      refine ⟨_, hexec, waitEye_waits e _ _ _, ?_⟩
      cases e <;> rfl
    · have hrig' : (emptySlot e s).cg.rig = .setup := hrig
      have ha' : (emptySlot e s).ae.agreement = some a := ha
      rw [takeRefuse, if_pos hin, if_pos hrig', if_pos hr, ha'] at hexec
      obtain ⟨u, hu⟩ : ∃ u, u = excludePair a (emptySlot e s) := ⟨_, rfl⟩
      simp only [← hu] at hexec
      have hcaps : ∀ e', (u.eye e').caps = (s.eye e').caps := fun e' => by
        rw [hu, excludePair_eye, emptySlot_eye]
        split
        · next h => rw [h]
        · rfl
      have hboth := runChoice_both none ((hcaps .left).trans hl) ((hcaps .right).trans hr')
      have hexclusion : u.ae.exclusion = s.ae.exclusion ++ [(a.index.left, a.index.right)] := by rw [hu]; rfl
      have hframe : u.ae.frame = s.ae.frame := by rw [hu]; rfl
      have hplaced := runChoice_placedAs none u
      have hchoice : choicePlaced none (choose s.ae.frame (s.ae.exclusion ++ [(a.index.left, a.index.right)]) l.offers r.offers)
          s (runChoice none u) := by
        rw [hboth, hframe, hexclusion]
        refine choicePlaced_congr (placeChoice_choicePlaced none _ u) (by rw [hu]; rfl) (fun e' => ?_) rfl rfl fun e => rfl
        rw [hu, excludePair_eye, emptySlot_eye]
        split
        · next h => rw [h]; exact ⟨rfl, rfl, rfl⟩
        · exact ⟨rfl, rfl, rfl⟩
      refine ⟨_, _, hexec, rfl, hplaced.blocks.2.2.2.1.trans hexclusion, hchoice, fun b hb hsame => ?_, ?_⟩
      · have hchosen := hchoice.1.symm.trans hb
        exact choose_not_excluded hchosen (by simp [hsame])
      · exact hplaced.rest.trans (by rw [hu]; rfl)

end Sys2Proof.Machine
end

section
/-! PROOFS. The lens table store: what its operations do to the slots, the bindings and the previous targets (O47, O48), and
what the held table changes leave when they are applied (R102). -/

namespace Sys2Proof.Machine

theorem PerEye_ext {α : Type} {p q : PerEye α} (h : ∀ e, p.get e = q.get e) : p = q := by
  obtain ⟨l, r⟩ := p
  obtain ⟨l', r'⟩ := q
  exact congrArg₂ PerEye.mk (h .left) (h .right)

/-! ## Clearing previous targets -/

/-- The Lens Matching Engine with the previous targets of the eyes in `hit` cleared, marked where a plan is in progress
(R120). -/
def LensMatch.clearedFor (plan : Bool) (hit : Eye → Bool) (l : LensMatch) : LensMatch :=
  { l with
    previous := .of fun e => if hit e then .all none else l.previous.get e
    clearMark := .of fun e => l.clearMark.get e || (hit e && plan) }

theorem clearedFor_clearedFor (plan : Bool) (hit hit' : Eye → Bool) (l : LensMatch) :
    (l.clearedFor plan hit).clearedFor plan hit' = l.clearedFor plan fun e => hit e || hit' e := by
  unfold LensMatch.clearedFor
  simp only [PerEye_get_of, LensMatch.mk.injEq, true_and]
  refine ⟨PerEye_ext fun e => ?_, PerEye_ext fun e => ?_⟩
  · cases h : hit e <;> cases h' : hit' e <;> simp [h, h']
  · cases h : hit e <;> cases h' : hit' e <;> simp [h, h']

theorem clearedFor_none (plan : Bool) (l : LensMatch) : (l.clearedFor plan fun _ => false) = l := by
  unfold LensMatch.clearedFor
  simp
  rfl

theorem clearPrevious_lme (e : Eye) (s : State) :
    (clearPrevious e s).lme = s.lme.clearedFor s.tp.inProgress.isSome fun e' => decide (e' = e) := by
  simp only [clearPrevious, State.mapLme_lme, LensMatch.clearedFor, LensMatch.mk.injEq, true_and]
  refine ⟨PerEye_ext fun e' => ?_, PerEye_ext fun e' => ?_⟩
  · by_cases h : e' = e <;> simp [PerEye_get_set, h]
  · by_cases h : e' = e <;> cases s.tp.inProgress <;> simp [PerEye_get_set, h]

theorem clearPreviousIf_lme (c : Bool) (e : Eye) (s : State) :
    (clearPreviousIf c e s).lme = s.lme.clearedFor s.tp.inProgress.isSome fun e' => c && decide (e' = e) := by
  cases c with
  | false => exact (clearedFor_none _ _).symm
  | true => simpa [clearPreviousIf] using clearPrevious_lme e s

/-! ## Bindings -/

theorem evalBinding_lts (e : Eye) (s : State) :
    (evalBinding e s).lts = { s.lts with binding := s.lts.binding.set e (s.bindingOf e) } := by
  unfold evalBinding
  dsimp only
  split
  · next h => rw [← h, PerEye_set_get]
  · simp

theorem evalBinding_lme (e : Eye) (s : State) :
    (evalBinding e s).lme = s.lme.clearedFor s.tp.inProgress.isSome fun e' =>
      decide (s.lts.binding.get e ≠ s.bindingOf e) && decide (e' = e) := by
  unfold evalBinding
  dsimp only
  split
  · next h => simp [h, clearedFor_none]
  · next h =>
    refine (clearPrevious_lme e _).trans ?_
    simp [h]

theorem bindingOf_congr {s t : State} (e : Eye) (hcaps : (t.eye e).caps = (s.eye e).caps)
    (hslots : t.lts.slots = s.lts.slots) : t.bindingOf e = s.bindingOf e := by
  unfold State.bindingOf LensStore.find
  rw [hcaps, hslots]

theorem evalBindings_lts (s : State) : (evalBindings s).lts = { s.lts with binding := .of s.bindingOf } := by
  have hright : (evalBinding .left s).bindingOf .right = s.bindingOf .right :=
    bindingOf_congr .right (by simp) (by rw [evalBinding_lts])
  rw [evalBindings, evalBinding_lts, hright, evalBinding_lts]
  rfl

theorem evalBindings_lme (s : State) :
    (evalBindings s).lme = s.lme.clearedFor s.tp.inProgress.isSome fun e =>
      decide (s.lts.binding.get e ≠ s.bindingOf e) := by
  have hright : (evalBinding .left s).bindingOf .right = s.bindingOf .right :=
    bindingOf_congr .right (by simp) (by rw [evalBinding_lts])
  have hbinding : (evalBinding .left s).lts.binding.get .right = s.lts.binding.get .right := by
    rw [evalBinding_lts]
    rfl
  rw [evalBindings, evalBinding_lme, hright, hbinding, evalBinding_lme, show (evalBinding .left s).tp = s.tp by simp,
    clearedFor_clearedFor]
  congr 1
  funext e
  cases e <;> simp

theorem afterApply_lts (touched : Nat → Bool) (before : PerEye (Option Nat)) (s : State) :
    (afterApply touched before s).lts = { s.lts with binding := .of s.bindingOf } := by
  rw [← evalBindings_lts s]
  simp [afterApply]

theorem afterApply_lme (touched : Nat → Bool) (before : PerEye (Option Nat)) (s : State) :
    (afterApply touched before s).lme = s.lme.clearedFor s.tp.inProgress.isSome fun e =>
      decide (s.lts.binding.get e ≠ s.bindingOf e) || (boundTo touched (before.get e) || boundTo touched (s.bindingOf e)) := by
  have hbinding : (evalBindings s).lts.binding = .of s.bindingOf := by rw [evalBindings_lts]
  unfold afterApply
  dsimp only
  rw [clearPreviousIf_lme, clearPreviousIf_lme, evalBindings_lme, show (evalBindings s).tp = s.tp by simp,
    show ∀ c, (clearPreviousIf c .left (evalBindings s)).tp = s.tp by simp, clearedFor_clearedFor, clearedFor_clearedFor, hbinding]
  congr 1
  funext e
  cases e <;> simp <;> rfl

/-! ## Slots named by an identity -/

theorem slot_eq_getElem {l : LensStore} {k : Nat} (h : k < l.slots.length) : l.slot k = l.slots[k] := by
  simp [LensStore.slot, h]

theorem slot_outside {l : LensStore} {k : Nat} (h : l.slots.length ≤ k) : l.slot k = ⟨none, none, false⟩ := by
  simp [LensStore.slot, h]

theorem find_eq_some {l : LensStore} {x : BitVec 32} {k : Nat} (h : l.find x = some k) :
    k < l.slots.length ∧ (l.slot k).identity = some x := by
  obtain ⟨hk, hx, -⟩ := List.findIdx?_eq_some_iff_getElem.1 h
  exact ⟨hk, by rw [slot_eq_getElem hk]; simpa using hx⟩

theorem find_isSome {l : LensStore} {x : BitVec 32} {k : Nat} (hk : k < l.slots.length) (h : (l.slot k).identity = some x) :
    (l.find x).isSome = true := by
  rw [Option.isSome_iff_ne_none]
  intro hnone
  have := List.findIdx?_eq_none_iff.1 hnone _ (List.getElem_mem hk)
  rw [slot_eq_getElem hk] at h
  simp [h] at this

/-- The CAPS of an eye names the contents of a slot (R105). -/
def State.namesSlot (s : State) (e : Eye) (k : Nat) : Prop :=
  k < 8 ∧ ∃ x, ((s.eye e).caps.bind Caps.identity) = some x ∧ (s.lts.slot k).identity = some x

theorem boundByIdentity_iff_names (s : State) :
    s.boundByIdentity ↔ ∀ e k, s.lts.binding.get e = some k ↔ s.namesSlot e k := by
  refine forall_congr' fun e => forall_congr' fun k => iff_congr Iff.rfl (and_congr Iff.rfl ?_)
  constructor
  · rintro ⟨caps, table, x, hcaps, hx, hcontents, rfl⟩
    exact ⟨_, by rw [hcaps]; exact hx, by rw [LensSlot.identity, hcontents]; rfl⟩
  · rintro ⟨x, hx, hslot⟩
    obtain ⟨caps, hcaps, hx⟩ := Option.bind_eq_some_iff.1 hx
    obtain ⟨table, hcontents, rfl⟩ := Option.map_eq_some_iff.1 hslot
    exact ⟨caps, table, _, hcaps, hx, hcontents, rfl⟩

theorem bindingOf_eq_some {s : State} {e : Eye} {k : Nat} (hlen : s.lts.slots.length = 8) (h : s.bindingOf e = some k) :
    s.namesSlot e k := by
  obtain ⟨x, hx, hfind⟩ := Option.bind_eq_some_iff.1 h
  obtain ⟨hk, hslot⟩ := find_eq_some hfind
  exact ⟨by omega, x, hx, hslot⟩

theorem bindingOf_isSome {s : State} {e : Eye} {k : Nat} (hlen : s.lts.slots.length = 8) (h : s.namesSlot e k) :
    ∃ j, s.bindingOf e = some j := by
  obtain ⟨hk, x, hx, hslot⟩ := h
  obtain ⟨j, hj⟩ := Option.isSome_iff_exists.1 (find_isSome (by omega) hslot)
  exact ⟨j, by rw [State.bindingOf, hx]; exact hj⟩

/-- Bound by identity: each binding is the evaluated one, and an eye's CAPS names one slot at most (R105). -/
theorem boundByIdentity_iff {s : State} (hlen : s.lts.slots.length = 8) :
    s.boundByIdentity ↔ (∀ e, s.lts.binding.get e = s.bindingOf e) ∧
      ∀ e j k, s.namesSlot e j → s.namesSlot e k → j = k := by
  rw [boundByIdentity_iff_names]
  constructor
  · intro h
    refine ⟨fun e => ?_, fun e j k hj hk => Option.some.inj (((h e j).2 hj).symm.trans ((h e k).2 hk))⟩
    cases hb : s.bindingOf e with
    | some k => exact (h e k).2 (bindingOf_eq_some hlen hb)
    | none =>
      rw [Option.eq_none_iff_forall_not_mem]
      intro k hk
      obtain ⟨j, hj⟩ := bindingOf_isSome hlen ((h e k).1 hk)
      rw [hj] at hb
      cases hb
  · rintro ⟨hb, hone⟩ e k
    rw [hb]
    constructor
    · exact bindingOf_eq_some hlen
    · intro hk
      obtain ⟨j, hj⟩ := bindingOf_isSome hlen hk
      rw [hj, hone e j k (bindingOf_eq_some hlen hj) hk]

/-! ## Operations on the slots -/

@[simp] theorem mapSlot_length (k : Nat) (f : LensSlot → LensSlot) (l : LensStore) :
    (l.mapSlot k f).slots.length = l.slots.length := by
  simp [LensStore.mapSlot]

theorem mapSlot_slot (k j : Nat) (f : LensSlot → LensSlot) (l : LensStore) (hk : k < l.slots.length) :
    (l.mapSlot k f).slot j = if j = k then f (l.slot k) else l.slot j := by
  simp only [LensStore.slot, LensStore.mapSlot, List.getD_eq_getElem?_getD, List.getElem?_modify]
  by_cases h : j = k
  · subst h
    simp [hk]
  · simp [h, Ne.symm h]

theorem slots_map_slot (f : LensSlot → LensSlot) (hf : f ⟨none, none, false⟩ = ⟨none, none, false⟩) (l : LensStore) (k : Nat) :
    ({ l with slots := l.slots.map f } : LensStore).slot k = f (l.slot k) := by
  simp only [LensStore.slot, List.getD_eq_getElem?_getD, List.getElem?_map]
  cases l.slots[k]? <;> simp [hf]

theorem LensSlot.applyPending_eq (l : LensSlot) : l.applyPending = l.withHeld := by
  obtain ⟨contents, pending, bad⟩ := l
  cases pending with
  | none => rfl
  | some op => cases op <;> rfl

theorem LensSlot.withHeld_of_none {l : LensSlot} (h : l.pending = none) : l.withHeld = l := by
  obtain ⟨contents, pending, bad⟩ := l
  obtain rfl : pending = none := h
  rfl

/-- The state after a commit or a discard that is applied (R102 to R105). -/
theorem applyOp_eq (k : Nat) (op : PendingOp) (s : State) :
    applyOp k op s =
      { s with
        lts := { s.lts.mapSlot k (LensSlot.apply op) with
          binding := .of (s.mapLts (LensStore.mapSlot k (LensSlot.apply op))).bindingOf }
        lme := s.lme.clearedFor s.tp.inProgress.isSome fun e =>
          decide (s.lts.binding.get e ≠ (s.mapLts (LensStore.mapSlot k (LensSlot.apply op))).bindingOf e) ||
            (boundTo (· == k) (s.lts.binding.get e) ||
              boundTo (· == k) ((s.mapLts (LensStore.mapSlot k (LensSlot.apply op))).bindingOf e)) } := by
  refine State.eq_of_fields (by simp) (by simp) (fun e => by simp; rfl) (by simp) (by simp) ?_ ?_ (by simp) (by simp) (by simp)
    (by simp) (by simp)
  · rw [applyOp, afterApply_lts]
    rfl
  · rw [applyOp, afterApply_lme]
    rfl

theorem hasPending_eq (l : LensStore) (k : Nat) : l.hasPending k = (l.slot k).pending.isSome := rfl

theorem any_pending_iff (l : LensStore) : (l.slots.any fun slot => slot.pending.isSome) = true ↔ ∃ k, (l.slot k).pending ≠ none := by
  rw [List.any_eq_true]
  constructor
  · rintro ⟨slot, hmem, hp⟩
    obtain ⟨k, hk, rfl⟩ := List.getElem_of_mem hmem
    exact ⟨k, by rw [slot_eq_getElem hk]; exact Option.isSome_iff_ne_none.1 hp⟩
  · rintro ⟨k, hk⟩
    by_cases h : k < l.slots.length
    · rw [slot_eq_getElem h] at hk
      exact ⟨_, List.getElem_mem h, Option.isSome_iff_ne_none.2 hk⟩
    · rw [slot_outside (Nat.le_of_not_lt h)] at hk
      exact absurd rfl hk

theorem forall_pending_iff (l : LensStore) : (∀ slot ∈ l.slots, slot.pending = none) ↔ ∀ k, (l.slot k).pending = none := by
  have h := not_congr (any_pending_iff l)
  rw [List.any_eq_true] at h
  push Not at h
  simpa using h

theorem applyPendingOps_of_none {s : State} (h : ∀ l ∈ s.lts.slots, l.pending = none) : applyPendingOps s = s := by
  rw [applyPendingOps, if_neg]
  rw [any_pending_iff]
  push Not
  exact (forall_pending_iff _).1 h

/-- The slots after the held changes are applied, held or not (R102). -/
theorem applyPendingOps_slots (s : State) : (applyPendingOps s).lts.slots = s.lts.slots.map LensSlot.withHeld := by
  by_cases h : ∀ l ∈ s.lts.slots, l.pending = none
  · rw [applyPendingOps_of_none h]
    exact ((List.map_congr_left fun l hl => LensSlot.withHeld_of_none (h l hl)).trans (List.map_id _)).symm
  · rw [forall_pending_iff, ← not_exists_not, not_not, ← any_pending_iff] at h
    rw [applyPendingOps, if_pos h, afterApply_lts]
    exact List.map_congr_left fun slot _ => slot.applyPending_eq

theorem applyPendingOps_slot (s : State) (k : Nat) : (applyPendingOps s).lts.slot k = (s.lts.slot k).withHeld := by
  rw [← slots_map_slot LensSlot.withHeld rfl]
  unfold LensStore.slot
  rw [applyPendingOps_slots]

/-- The state after the held changes are applied, where there are any (R102 to R105). -/
theorem applyPendingOps_eq {s : State} (h : ∃ k, (s.lts.slot k).pending ≠ none) :
    applyPendingOps s =
      { s with
        lts := { s.lts with
          slots := s.lts.slots.map LensSlot.withHeld
          binding := .of (s.mapLts fun l => { l with slots := l.slots.map LensSlot.withHeld }).bindingOf }
        lme := s.lme.clearedFor s.tp.inProgress.isSome fun e =>
          decide (s.lts.binding.get e ≠ (s.mapLts fun l => { l with slots := l.slots.map LensSlot.withHeld }).bindingOf e) ||
            (boundTo s.lts.hasPending (s.lts.binding.get e) ||
              boundTo s.lts.hasPending ((s.mapLts fun l => { l with slots := l.slots.map LensSlot.withHeld }).bindingOf e)) } := by
  have hheld : (s.mapLts fun l => { l with slots := l.slots.map LensSlot.applyPending }) =
      s.mapLts fun l => { l with slots := l.slots.map LensSlot.withHeld } := by
    rw [show LensSlot.applyPending = LensSlot.withHeld from funext LensSlot.applyPending_eq]
  refine State.eq_of_fields (by simp) (by simp) (fun e => by simp; rfl) (by simp) (by simp) ?_ ?_ (by simp) (by simp) (by simp)
    (by simp) (by simp)
  · rw [applyPendingOps, if_pos ((any_pending_iff _).2 h), afterApply_lts, hheld]
    rfl
  · rw [applyPendingOps, if_pos ((any_pending_iff _).2 h), afterApply_lme, hheld]
    rfl

theorem boundTo_eq_true (touched : Nat → Bool) (o : Option Nat) : boundTo touched o = true ↔ ∃ k, o = some k ∧ touched k = true := by
  cases o <;> simp [boundTo]

/-! ## The store's form -/

/-- The part of a sound store that says nothing of the rig's state: its sizes, its slots sound and apart, its save record,
and the bindings by identity. -/
def State.storeForm (s : State) : Prop :=
  s.lts.slots.length = 8 ∧ s.lts.nv.length = 8 ∧ s.lts.staging.length = 400 ∧
    (∀ l ∈ s.lts.slots, l.sound) ∧
    (∀ j k, j < 8 → k < 8 → j ≠ k → (s.lts.slot j).apart (s.lts.slot k) ∧
      ∀ x, (s.lts.slot j).pendingIdentity = some x → (s.lts.slot k).pendingIdentity ≠ some x) ∧
    (s.lts.store = .saving ↔ s.lts.saving.isSome = true) ∧ s.boundByIdentity

theorem storeSound_iff (s : State) :
    s.storeSound ↔ s.storeForm ∧ (s.cg.rig ≠ .rolling → ∀ l ∈ s.lts.slots, l.pending = none) := by
  unfold State.storeSound State.storeForm
  tauto

theorem forall_slots_iff {l : LensStore} (hlen : l.slots.length = 8) (P : LensSlot → Prop) :
    (∀ slot ∈ l.slots, P slot) ↔ ∀ k < 8, P (l.slot k) := by
  constructor
  · intro h k hk
    rw [slot_eq_getElem (by omega)]
    exact h _ (List.getElem_mem _)
  · intro h slot hmem
    obtain ⟨k, hk, rfl⟩ := List.getElem_of_mem hmem
    rw [← slot_eq_getElem hk]
    exact h k (by omega)

/-- A name is one slot's where contents are apart. -/
theorem namesSlot_unique {s : State} (hapart : ∀ j k, j < 8 → k < 8 → j ≠ k → ∀ x, (s.lts.slot j).identity = some x →
    (s.lts.slot k).identity ≠ some x) (e : Eye) (j k : Nat) (hj : s.namesSlot e j) (hk : s.namesSlot e k) : j = k := by
  obtain ⟨hj, x, hx, hslotj⟩ := hj
  obtain ⟨hk, y, hy, hslotk⟩ := hk
  obtain rfl : x = y := Option.some.inj (hx.symm.trans hy)
  by_contra hne
  exact hapart j k hj hk hne x hslotj hslotk

/-- Evaluated bindings of a store whose contents are apart are by identity (R105). -/
theorem boundByIdentity_of_apart {s : State} (hlen : s.lts.slots.length = 8)
    (hapart : ∀ j k, j < 8 → k < 8 → j ≠ k → ∀ x, (s.lts.slot j).identity = some x → (s.lts.slot k).identity ≠ some x)
    (hbinding : ∀ e, s.lts.binding.get e = s.bindingOf e) : s.boundByIdentity :=
  (boundByIdentity_iff hlen).2 ⟨hbinding, namesSlot_unique hapart⟩

theorem LensSlot.withHeld_sound {l : LensSlot} (h : l.sound) : l.withHeld.sound := by
  obtain ⟨contents, pending, bad⟩ := l
  obtain ⟨hc, hp⟩ := h
  cases pending with
  | none => exact ⟨hc, fun c hc => (by cases hc)⟩
  | some op =>
    cases op with
    | commit copy => exact ⟨fun c h => (by cases h; exact hp copy rfl), fun c hc => (by cases hc)⟩
    | discard => exact ⟨fun c h => (by cases h), fun c hc => (by cases hc)⟩

@[simp] theorem LensSlot.withHeld_pending (l : LensSlot) : l.withHeld.pending = none := rfl

@[simp] theorem LensSlot.withHeld_pendingIdentity (l : LensSlot) : l.withHeld.pendingIdentity = none := rfl

/-- The identity of a slot after its held change is the old one or the pending one. -/
theorem LensSlot.withHeld_identity {l : LensSlot} {x : BitVec 32} (h : l.withHeld.identity = some x) :
    l.identity = some x ∨ l.pendingIdentity = some x := by
  obtain ⟨contents, pending, bad⟩ := l
  cases pending with
  | none => exact .inl h
  | some op =>
    cases op with
    | commit copy => exact .inr h
    | discard => cases h

theorem storeForm.withHeld_apart {s : State} (h : s.storeForm) {j k : Nat} (hj : j < 8) (hk : k < 8) (hne : j ≠ k)
    (x : BitVec 32) (hx : (s.lts.slot j).withHeld.identity = some x) : (s.lts.slot k).withHeld.identity ≠ some x := by
  obtain ⟨-, -, -, -, hapart, -, -⟩ := h
  intro hx'
  obtain ⟨hjk, hpending⟩ := hapart j k hj hk hne
  obtain ⟨hkj, -⟩ := hapart k j hk hj (Ne.symm hne)
  obtain h1 | h1 := LensSlot.withHeld_identity hx <;> obtain h2 | h2 := LensSlot.withHeld_identity hx'
  · exact (hjk x h1).1 h2
  · exact (hjk x h1).2 h2
  · exact (hkj x h2).2 h1
  · exact hpending x h1 h2

theorem applyPendingOps_pending (s : State) : ∀ l ∈ (applyPendingOps s).lts.slots, l.pending = none := by
  rw [applyPendingOps_slots]
  rintro l hl
  obtain ⟨slot, -, rfl⟩ := List.mem_map.1 hl
  rfl

/-- What of the store the held changes leave (R102). -/
theorem applyPendingOps_lts (s : State) :
    (applyPendingOps s).lts =
      { s.lts with slots := (applyPendingOps s).lts.slots, binding := (applyPendingOps s).lts.binding } := by
  by_cases h : ∃ k, (s.lts.slot k).pending ≠ none
  · rw [applyPendingOps_eq h]
  · push Not at h
    rw [applyPendingOps_of_none ((forall_pending_iff _).2 h)]

theorem applyPendingOps_storeForm {s : State} (h : s.storeForm) : (applyPendingOps s).storeForm := by
  have hwithHeld := @storeForm.withHeld_apart s h
  obtain ⟨hlen, hnv, hstaging, hsound, hapart, hsaving, hbound⟩ := h
  have hlen' : (applyPendingOps s).lts.slots.length = 8 := by rw [applyPendingOps_slots, List.length_map, hlen]
  have hapart' : ∀ j k, j < 8 → k < 8 → j ≠ k → ∀ x, ((applyPendingOps s).lts.slot j).identity = some x →
      ((applyPendingOps s).lts.slot k).identity ≠ some x := fun j k hj hk hne x => by
    rw [applyPendingOps_slot, applyPendingOps_slot]
    exact hwithHeld hj hk hne x
  refine ⟨hlen', ?_, ?_, ?_, fun j k hj hk hne => ⟨fun x hx => ⟨hapart' j k hj hk hne x hx, ?_⟩, fun x hx => ?_⟩, ?_, ?_⟩
  · rw [applyPendingOps_lts]
    exact hnv
  · rw [applyPendingOps_lts]
    exact hstaging
  · rw [applyPendingOps_slots]
    intro l hl
    obtain ⟨slot, hmem, rfl⟩ := List.mem_map.1 hl
    exact LensSlot.withHeld_sound (hsound slot hmem)
  · rw [applyPendingOps_slot]
    simp
  · rw [applyPendingOps_slot] at hx
    simp at hx
  · rw [applyPendingOps_lts]
    exact hsaving
  · by_cases hp : ∃ k, (s.lts.slot k).pending ≠ none
    · refine boundByIdentity_of_apart hlen' hapart' fun e => ?_
      rw [applyPendingOps_eq hp]
      exact (PerEye_get_of _ _).trans (bindingOf_congr e rfl rfl)
    · push Not at hp
      rwa [applyPendingOps_of_none ((forall_pending_iff _).2 hp)]

/-- The held changes are applied as R102 says, of a store of the right form. -/
theorem heldApplied_applyPendingOps {s : State} (h : s.storeForm) : heldApplied s (applyPendingOps s) := by
  refine ⟨applyPendingOps_slot s, (applyPendingOps_storeForm h).2.2.2.2.2.2, ?_⟩
  rintro e touched rfl
  by_cases hp : ∃ k, (s.lts.slot k).pending ≠ none
  · rw [applyPendingOps_eq hp]
    simp only [PerEye_get_of, LensMatch.clearedFor]
    have htouched : (decide (s.lts.binding.get e ≠ (s.mapLts fun l => { l with slots := l.slots.map LensSlot.withHeld }).bindingOf e) ||
            (boundTo s.lts.hasPending (s.lts.binding.get e) ||
              boundTo s.lts.hasPending ((s.mapLts fun l => { l with slots := l.slots.map LensSlot.withHeld }).bindingOf e))) = true ↔
        ((s.mapLts fun l => { l with slots := l.slots.map LensSlot.withHeld }).bindingOf e ≠ s.lts.binding.get e ∨
          ∃ k, (s.lts.binding.get e = some k ∨ (s.mapLts fun l => { l with slots := l.slots.map LensSlot.withHeld }).bindingOf e = some k) ∧
            (s.lts.slot k).pending ≠ none) := by
      simp only [Bool.or_eq_true, decide_eq_true_eq, boundTo_eq_true, hasPending_eq, Option.isSome_iff_ne_none]
      refine or_congr ne_comm ?_
      rw [← exists_or]
      exact exists_congr fun k => or_and_right.symm
    rw [← htouched]
    exact ⟨fun hc => if_pos hc, fun hc => if_neg hc⟩
  · push Not at hp
    rw [applyPendingOps_of_none ((forall_pending_iff _).2 hp)]
    refine ⟨fun hc => ?_, fun _ => rfl⟩
    obtain hc | ⟨k, -, hk⟩ := hc
    · exact absurd rfl hc
    · exact absurd (hp k) hk

theorem heldApplied_congr {s s' t t' : State} (h : heldApplied s t) (hs : s'.lts = s.lts) (hsp : s'.lme.previous = s.lme.previous)
    (ht : t'.lts = t.lts) (htp : t'.lme.previous = t.lme.previous) (hcaps : ∀ e, (t'.eye e).caps = (t.eye e).caps) :
    heldApplied s' t' := by
  unfold heldApplied State.boundByIdentity at *
  simp only [hs, hsp, ht, htp, hcaps]
  exact h

end Sys2Proof.Machine
end

section
/-! PROOFS. The requests that change a slot, the save and the load (O47, O48). -/

namespace Sys2Proof.Machine

theorem LensSlot.pendingIdentity_eq_some (l : LensSlot) (x : BitVec 32) :
    l.pendingIdentity = some x ↔ ∃ c, l.pending = some (.commit c) ∧ c.table.identity = x := by
  obtain ⟨contents, pending, bad⟩ := l
  cases pending with
  | none => simp [LensSlot.pendingIdentity]
  | some op => cases op <;> simp [LensSlot.pendingIdentity]

theorem clashes_eq_false (l : LensStore) (k : Nat) (x : BitVec 32) :
    l.clashes k x = false ↔ ∀ j, j < 8 → j ≠ k → (l.slot j).identity ≠ some x ∧
      ∀ c, (l.slot j).pending = some (.commit c) → c.table.identity ≠ x := by
  have hpending : ∀ j, (∀ c, (l.slot j).pending = some (.commit c) → c.table.identity ≠ x) ↔
      (l.slot j).pendingIdentity ≠ some x := fun j => by
    rw [ne_eq, LensSlot.pendingIdentity_eq_some]
    push Not
    rfl
  simp only [LensStore.clashes, List.any_eq_false, List.mem_range, Bool.and_eq_true, Bool.or_eq_true, bne_iff_ne,
    beq_iff_eq, hpending]
  exact forall_congr' fun j => forall_congr' fun _ => by tauto

theorem holdsChange_iff (s : State) (k : Nat) :
    s.holdsChange k = true ↔ s.cg.rig = .rolling ∧ ∃ e, (s.eye e).state.inTake = true ∧ s.lts.binding.get e = some k := by
  simp only [State.holdsChange, Bool.and_eq_true, Bool.or_eq_true, decide_eq_true_eq, beq_iff_eq]
  refine and_congr Iff.rfl ⟨?_, ?_⟩
  · rintro (h | h)
    · exact ⟨.left, h⟩
    · exact ⟨.right, h⟩
  · rintro ⟨e, h⟩
    cases e with
    | left => exact .inl h
    | right => exact .inr h

/-- The command and the request of a change of a slot: COMMIT, or DISCARD (R97, R104). -/
def changeCommand (discard : Bool) (slot : Byte) (pad : Nat) : Instr := if discard then .discard slot pad else .commit slot pad

def changeRequest (discard : Bool) (slot : Byte) : Request := if discard then .discard slot else .commit slot

theorem exec_change_refused {s : State} (discard : Bool) (slot : Byte) (pad : Nat) (code : ResponseCode) (hs : s.rcpServes)
    (hd : ∀ u : State, u.lts = s.lts → (if discard then decideDiscard slot u else decideCommit slot u) =
      answer (requestKind (changeRequest discard slot)) code u) :
    exec (changeCommand discard slot pad) s = .next { s with rcp := s.rcpAnswer (changeRequest discard slot) pad code } := by
  rw [← answer_rcpClosed, ← hd (s.rcpClosed _) rfl]
  cases discard
  · exact exec_commit_serves slot pad s hs
  · exact exec_discard_serves slot pad s hs

theorem exec_change_done {s : State} (discard : Bool) (slot : Byte) (pad : Nat) (op : PendingOp) (hs : s.rcpServes)
    (hd : ∀ u : State, u.lts = s.lts → (if discard then decideDiscard slot u else decideCommit slot u) =
      answer (requestKind (changeRequest discard slot)) .done (changeSlot slot.toNat op u)) :
    exec (changeCommand discard slot pad) s = .next (answer (requestKind (changeRequest discard slot)) .done
      (changeSlot slot.toNat op (s.rcpClosed (requestBits (changeRequest discard slot) pad)))) := by
  rw [← hd (s.rcpClosed _) rfl]
  cases discard
  · exact exec_commit_serves slot pad s hs
  · exact exec_discard_serves slot pad s hs

/-- One slot changed to contents whose identity no other slot has leaves at most one slot for each identity that had one. -/
theorem namesSlot_changed {s t : State} {k : Nat} (hone : ∀ e i j, s.namesSlot e i → s.namesSlot e j → i = j)
    (hcaps : ∀ e, (t.eye e).caps = (s.eye e).caps) (hother : ∀ j, j ≠ k → t.lts.slot j = s.lts.slot j)
    (hnew : ∀ j x, j < 8 → j ≠ k → (t.lts.slot k).identity = some x → (s.lts.slot j).identity ≠ some x)
    (e : Eye) (i j : Nat) (hi : t.namesSlot e i) (hj : t.namesSlot e j) : i = j := by
  have hback : ∀ n, n ≠ k → t.namesSlot e n → s.namesSlot e n := fun n hn ⟨h, x, hx, hslot⟩ =>
    ⟨h, x, by rw [← hcaps]; exact hx, by rw [← hother n hn]; exact hslot⟩
  have hapart : ∀ n, n ≠ k → t.namesSlot e n → ¬ t.namesSlot e k := by
    rintro n hn ⟨h, x, hx, hslot⟩ ⟨-, y, hy, hslot'⟩
    obtain rfl : x = y := Option.some.inj (hx.symm.trans hy)
    rw [hother n hn] at hslot
    exact hnew n x h hn hslot' hslot
  by_cases hik : i = k
  · by_cases hjk : j = k
    · exact hik.trans hjk.symm
    · exact absurd (hik ▸ hi) (hapart j hjk hj)
  · by_cases hjk : j = k
    · exact absurd (hjk ▸ hj) (hapart i hik hi)
    · exact hone e i j (hback i hik hi) (hback j hjk hj)

theorem LensSlot.apply_eq (op : PendingOp) (l : LensSlot) :
    l.apply op = { l with contents := match op with | .commit copy => some copy | .discard => none, pending := none } := by
  cases op <;> rfl

/-- A change that is applied: its slot, the bindings and the clearing (R102 to R105, R120). -/
theorem applyOp_applied {s : State} {k : Nat} {op : PendingOp} (hk : k < 8) (hlen : s.lts.slots.length = 8)
    (hbound : s.boundByIdentity)
    (hnew : ∀ j x, j < 8 → j ≠ k → ((s.lts.slot k).apply op).identity = some x → (s.lts.slot j).identity ≠ some x) :
    (applyOp k op s).lts.slots.length = 8 ∧ (applyOp k op s).lts.slot k = (s.lts.slot k).apply op ∧
      (∀ j, j ≠ k → (applyOp k op s).lts.slot j = s.lts.slot j) ∧ (applyOp k op s).boundByIdentity := by
  have hslot : ∀ j, (applyOp k op s).lts.slot j = if j = k then (s.lts.slot k).apply op else s.lts.slot j := fun j => by
    rw [applyOp_eq]
    exact mapSlot_slot k j _ s.lts (by omega)
  have hlen' : (applyOp k op s).lts.slots.length = 8 := by
    rw [applyOp_eq]
    exact (mapSlot_length _ _ _).trans hlen
  have hother : ∀ j, j ≠ k → (applyOp k op s).lts.slot j = s.lts.slot j := fun j hj => by rw [hslot, if_neg hj]
  have hsame : (applyOp k op s).lts.slot k = (s.lts.slot k).apply op := by rw [hslot, if_pos rfl]
  refine ⟨hlen', hsame, hother, (boundByIdentity_iff hlen').2 ⟨fun e => ?_, ?_⟩⟩
  · rw [applyOp_eq]
    exact (PerEye_get_of _ _).trans (bindingOf_congr e rfl rfl)
  · refine namesSlot_changed ((boundByIdentity_iff hlen).1 hbound).2 (fun e => by simp) hother fun j x hj hne hx => ?_
    rw [hsame] at hx
    exact hnew j x hj hne hx

/-- A change that is applied clears the previous targets of each eye bound to the slot before or after, or bound anew
(R120). -/
theorem applyOp_cleared (k : Nat) (op : PendingOp) (s : State) (e : Eye) :
    ((s.lts.binding.get e = some k ∨ (applyOp k op s).lts.binding.get e = some k ∨
        (applyOp k op s).lts.binding.get e ≠ s.lts.binding.get e) →
      (applyOp k op s).lme.previous.get e = .all none ∧
        (applyOp k op s).lme.clearMark.get e = (s.lme.clearMark.get e || s.tp.inProgress.isSome)) ∧
    (¬ (s.lts.binding.get e = some k ∨ (applyOp k op s).lts.binding.get e = some k ∨
        (applyOp k op s).lts.binding.get e ≠ s.lts.binding.get e) →
      (applyOp k op s).lme.previous.get e = s.lme.previous.get e ∧
        (applyOp k op s).lme.clearMark.get e = s.lme.clearMark.get e) := by
  rw [applyOp_eq]
  obtain ⟨bound, hbound⟩ : ∃ f, f = (s.mapLts (LensStore.mapSlot k (LensSlot.apply op))).bindingOf := ⟨_, rfl⟩
  simp only [← hbound, PerEye_get_of, LensMatch.clearedFor]
  have hhit : (decide (s.lts.binding.get e ≠ bound e) ||
        (boundTo (· == k) (s.lts.binding.get e) || boundTo (· == k) (bound e))) = true ↔
      (s.lts.binding.get e = some k ∨ bound e = some k ∨ bound e ≠ s.lts.binding.get e) := by
    have hto : ∀ o : Option Nat, boundTo (· == k) o = true ↔ o = some k := fun o => by
      rw [boundTo_eq_true]
      simp
    rw [Bool.or_eq_true, Bool.or_eq_true, decide_eq_true_eq, hto, hto, ne_comm (a := bound e)]
    tauto
  rw [← hhit]
  refine ⟨fun h => ?_, fun h => ?_⟩
  · rw [h]
    exact ⟨rfl, rfl⟩
  · rw [Bool.not_eq_true] at h
    rw [h]
    simp

/-- Settles O47: the tests in their order, and the change held or applied. -/
theorem commitsAndDiscards : Obligations.CommitsAndDiscards := by
  rintro s slot pad c r discard hs hlen hbound rfl rfl
  refine ⟨fun hslot => ?_, fun hslot hload => ?_, fun hslot hload hd himage => ?_, fun hslot hload hd copy hcopy hclash => ?_,
    fun op hslot hload hop => ?_⟩
  · refine exec_change_refused discard slot pad .range hs fun u hu => ?_
    cases discard <;> simp only [decideCommit, decideDiscard, if_pos (show 8 ≤ slot.toNat from hslot)] <;> rfl
  · refine exec_change_refused discard slot pad .busy hs fun u hu => ?_
    have hn : ¬ 8 ≤ slot.toNat := by omega
    cases discard <;> simp only [decideCommit, decideDiscard, if_neg hn, hu, if_pos hload] <;> rfl
  · subst hd
    refine exec_change_refused false slot pad .badTable hs fun u hu => ?_
    have hn : ¬ 8 ≤ slot.toNat := by omega
    simp only [decideCommit, if_neg hn, hu, if_neg hload, himage]
    rfl
  · subst hd
    refine exec_change_refused false slot pad .dupLens hs fun u hu => ?_
    have hn : ¬ 8 ≤ slot.toNat := by omega
    have hclashes : s.lts.clashes slot.toNat copy.table.identity = true := by
      rw [← Bool.not_eq_false, clashes_eq_false]
      intro hall
      obtain ⟨j, hj, hne, hid | ⟨c', hp, hid⟩⟩ := hclash
      · exact (hall j hj hne).1 hid
      · exact (hall j hj hne).2 c' hp hid
    simp only [decideCommit, if_neg hn, hu, if_neg hload, hcopy, hclashes]
    rfl
  · have hn : ¬ 8 ≤ slot.toNat := by omega
    have hexec := exec_change_done discard slot pad op hs fun u hu => by
      obtain ⟨rfl, rfl⟩ | ⟨rfl, copy, rfl, hcopy, hall⟩ := hop
      · simp only [if_true, decideDiscard, if_neg hn, hu, if_neg hload]
        rfl
      · have hclashes := (clashes_eq_false s.lts slot.toNat copy.table.identity).2 hall
        simp only [decideCommit, if_neg hn, hu, if_neg hload, hcopy, hclashes]
        rfl
    obtain ⟨u, hu⟩ : ∃ u, u = s.rcpClosed (requestBits (changeRequest discard slot) pad) := ⟨_, rfl⟩
    have hholds : u.holdsChange slot.toNat = true ↔
        s.cg.rig = .rolling ∧ ∃ e, (s.eye e).state.inTake = true ∧ s.lts.binding.get e = some slot.toNat := by
      rw [holdsChange_iff, hu]
      rfl
    rw [← hu] at hexec
    refine ⟨fun hheld => ?_, fun hheld => ?_⟩
    · rw [changeSlot, if_pos (hholds.2 hheld)] at hexec
      have hlts : u.lts = s.lts := by rw [hu]; rfl
      refine ⟨_, hexec, by rw [hu]; rfl, ?_, ?_, fun j hj => ?_⟩
      · exact (mapSlot_length _ _ _).trans (by rw [hlts, hlen])
      · refine (mapSlot_slot slot.toNat slot.toNat _ u.lts (by rw [hlts]; omega)).trans ?_
        rw [if_pos rfl, hlts]
      · refine (mapSlot_slot slot.toNat j _ u.lts (by rw [hlts]; omega)).trans ?_
        rw [if_neg hj, hlts]
    · rw [changeSlot, if_neg (mt hholds.1 hheld)] at hexec
      have hlts : u.lts = s.lts := by rw [hu]; rfl
      have hnew : ∀ j x, j < 8 → j ≠ slot.toNat → ((u.lts.slot slot.toNat).apply op).identity = some x →
          (u.lts.slot j).identity ≠ some x := by
        rw [hlts]
        intro j x hj hne hx
        obtain ⟨rfl, rfl⟩ | ⟨rfl, copy, rfl, hcopy, hall⟩ := hop
        · cases hx
        · obtain rfl : copy.table.identity = x := Option.some.inj hx
          exact (hall j hj hne).1
      obtain ⟨hlen', hsame, hother, hbound'⟩ := applyOp_applied (s := u) (k := slot.toNat) (op := op) (by omega)
        (by rw [hlts, hlen]) (by rw [hu]; exact hbound) hnew
      refine ⟨_, hexec, ?_, hlen', ?_, fun j hj => ?_, hbound', ?_⟩
      · rw [applyOp_eq, hu]
        rfl
      · refine hsame.trans ?_
        rw [hlts, LensSlot.apply_eq] <;> rfl
      · exact (hother j hj).trans (by rw [hlts])
      · rintro e cleared rfl
        have hb : u.lts.binding = s.lts.binding := by rw [hlts]
        have hl : u.lme = s.lme := by rw [hu]; rfl
        have ht : u.tp = s.tp := by rw [hu]; rfl
        have hcleared := applyOp_cleared slot.toNat op u e
        rw [hb, hl, ht] at hcleared
        exact hcleared

/-! ## The save and the load -/

/-- An identity is found before place `k` of the load (R110). -/
def foundBefore (found : List (BitVec 32)) (places : List NvPlace) (k : Nat) (x : BitVec 32) : Prop :=
  x ∈ found ∨ ∃ j < k, ∃ slot, (loadSlots found places)[j]? = some slot ∧ slot.identity = some x

/-- The load of one place leaves its slot and adds the identity of its contents to those found. -/
theorem loadSlots_cons (found : List (BitVec 32)) (place : NvPlace) (rest : List NvPlace) :
    ∃ slot found', loadSlots found (place :: rest) = slot :: loadSlots found' rest ∧
      (∀ x, x ∈ found' ↔ x ∈ found ∨ slot.identity = some x) ∧
      (judgePlace place = .empty → slot = ⟨none, none, false⟩) ∧ (judgePlace place = .bad → slot = ⟨none, none, true⟩) ∧
      ∀ c, judgePlace place = .valid c →
        (c.table.identity ∈ found → slot = ⟨none, none, true⟩) ∧ (c.table.identity ∉ found → slot = ⟨some c, none, false⟩) := by
  rw [loadSlots]
  cases hj : judgePlace place with
  | empty => exact ⟨_, _, rfl, by simp [LensSlot.identity], by simp, by simp, by simp⟩
  | bad => exact ⟨_, _, rfl, by simp [LensSlot.identity], by simp, by simp, by simp⟩
  | valid c =>
    by_cases hc : c.table.identity ∈ found
    · simp only [hc, if_true]
      exact ⟨_, _, rfl, by simp [LensSlot.identity], by simp, by simp, fun c' hc' => by cases hc'; simp [hc]⟩
    · simp only [hc, if_false]
      exact ⟨_, _, rfl, fun x => by simp [LensSlot.identity, or_comm, eq_comm], by simp, by simp,
        fun c' hc' => by cases hc'; simp [hc]⟩

theorem foundBefore_cons {found found' : List (BitVec 32)} {place : NvPlace} {rest : List NvPlace} {slot : LensSlot}
    (h : loadSlots found (place :: rest) = slot :: loadSlots found' rest)
    (hfound : ∀ x, x ∈ found' ↔ x ∈ found ∨ slot.identity = some x) (k : Nat) (x : BitVec 32) :
    foundBefore found (place :: rest) (k + 1) x ↔ foundBefore found' rest k x := by
  unfold foundBefore
  rw [h, hfound, or_assoc]
  refine or_congr Iff.rfl ⟨?_, ?_⟩
  · rintro ⟨_ | j, hj, slot', hslot, hx⟩
    · obtain rfl : slot = slot' := Option.some.inj hslot
      exact .inl hx
    · exact .inr ⟨j, Nat.lt_of_succ_lt_succ hj, slot', hslot, hx⟩
  · rintro (hx | ⟨j, hj, slot', hslot, hx⟩)
    · exact ⟨0, Nat.succ_pos k, slot, rfl, hx⟩
    · exact ⟨j + 1, Nat.succ_lt_succ hj, slot', hslot, hx⟩

/-- Each loaded slot, by the judgement of its place and by what is found before it (R110). -/
theorem loadSlots_place {places : List NvPlace} (found : List (BitVec 32)) {k : Nat} {place : NvPlace}
    (h : places[k]? = some place) :
    ∃ slot, (loadSlots found places)[k]? = some slot ∧
      (judgePlace place = .empty → slot = ⟨none, none, false⟩) ∧ (judgePlace place = .bad → slot = ⟨none, none, true⟩) ∧
      ∀ c, judgePlace place = .valid c →
        (foundBefore found places k c.table.identity → slot = ⟨none, none, true⟩) ∧
        (¬ foundBefore found places k c.table.identity → slot = ⟨some c, none, false⟩) := by
  induction places generalizing found k with
  | nil => cases h
  | cons first rest ih =>
    obtain ⟨slot, found', hload, hfound, hempty, hbad, hvalid⟩ := loadSlots_cons found first rest
    cases k with
    | zero =>
      obtain rfl : first = place := Option.some.inj h
      refine ⟨slot, by rw [hload]; rfl, hempty, hbad, fun c hc => ?_⟩
      have hzero : foundBefore found (first :: rest) 0 c.table.identity ↔ c.table.identity ∈ found := by
        unfold foundBefore
        simp
      rw [hzero]
      exact hvalid c hc
    | succ k =>
      obtain ⟨slot', hslot', hspec⟩ := ih found' (k := k) h
      refine ⟨slot', by rw [hload]; exact hslot', ?_⟩
      simp only [foundBefore_cons hload hfound]
      exact hspec

theorem loadSlots_length (found : List (BitVec 32)) (places : List NvPlace) : (loadSlots found places).length = places.length := by
  induction places generalizing found with
  | nil => rfl
  | cons first rest ih =>
    obtain ⟨slot, found', hload, -⟩ := loadSlots_cons found first rest
    rw [hload, List.length_cons, List.length_cons, ih]

theorem judgePlace_image (bytes : List Byte) :
    judgePlace (.image bytes) =
      if byteAt bytes 4 = 0 ∧ 7 ≤ bytes.length ∧ field bytes 5 2 = recordCheck (bytes.take 5) then .empty
      else match readImage bytes with
        | some contents => .valid contents
        | none => .bad := rfl

/-- What a loaded slot can be. -/
theorem loadSlots_mem {found : List (BitVec 32)} {places : List NvPlace} {k : Nat} {slot : LensSlot}
    (h : (loadSlots found places)[k]? = some slot) :
    slot.pending = none ∧ ∀ c, slot.contents = some c →
      (∃ place, places[k]? = some place ∧ judgePlace place = .valid c) ∧ ¬ foundBefore found places k c.table.identity := by
  have hk : k < places.length := by
    rw [← loadSlots_length found]
    exact (List.getElem?_eq_some_iff.1 h).1
  obtain ⟨slot', hslot', hempty, hbad, hvalid⟩ := loadSlots_place found (List.getElem?_eq_getElem hk)
  obtain rfl : slot = slot' := Option.some.inj (h.symm.trans hslot')
  cases hj : judgePlace places[k] with
  | empty => simp [hempty hj]
  | bad => simp [hbad hj]
  | valid c =>
    by_cases hc : foundBefore found places k c.table.identity
    · simp [(hvalid c hj).1 hc]
    · rw [(hvalid c hj).2 hc]
      refine ⟨rfl, fun c' hc' => ?_⟩
      obtain rfl : c = c' := Option.some.inj hc'
      exact ⟨⟨_, List.getElem?_eq_getElem hk, hj⟩, hc⟩

/-- The state after the load (R105, R110). -/
theorem finishLoad_eq (s : State) :
    finishLoad s =
      { s with
        lts := { s.lts with
          slots := loadSlots [] s.lts.nv, store := .ready
          binding := .of (s.mapLts fun l => { l with slots := loadSlots [] s.lts.nv, store := .ready }).bindingOf }
        lme := s.lme.clearedFor s.tp.inProgress.isSome fun e =>
          decide (s.lts.binding.get e ≠
            (s.mapLts fun l => { l with slots := loadSlots [] s.lts.nv, store := .ready }).bindingOf e)
        rcp := { s.rcp with
          notices := if (loadSlots [] s.lts.nv).any LensSlot.bad then addNotice s.rcp.notices .storeBad
            else s.rcp.notices } } := by
  obtain ⟨u, hu⟩ : ∃ u, u = s.mapLts fun l => { l with slots := loadSlots [] s.lts.nv, store := .ready } := ⟨_, rfl⟩
  have hload : finishLoad s = evalBindings (if (loadSlots [] s.lts.nv).any LensSlot.bad then raise .storeBad u else u) := by
    rw [hu]
    rfl
  rw [← hu, hload]
  obtain ⟨v, hv⟩ : ∃ v, v = if (loadSlots [] s.lts.nv).any LensSlot.bad then raise .storeBad u else u := ⟨_, rfl⟩
  have hvu : v = { u with rcp := { u.rcp with
      notices := if (loadSlots [] s.lts.nv).any LensSlot.bad then addNotice u.rcp.notices .storeBad else u.rcp.notices } } := by
    rw [hv]
    split <;> rfl
  have hbinding : v.bindingOf = u.bindingOf := funext fun e => by rw [hvu]; exact bindingOf_congr e rfl rfl
  rw [← hv]
  refine State.eq_of_fields ?_ ?_ (fun e => ?_) ?_ ?_ ?_ ?_ ?_ ?_ ?_ ?_ ?_
  case refine_6 =>
    rw [evalBindings_lts, hbinding, hvu, hu]
    rfl
  case refine_7 =>
    rw [evalBindings_lme, hbinding, hvu, hu]
    rfl
  case refine_3 =>
    rw [evalBindings_eye, hvu, hu]
    rfl
  all_goals
    simp only [evalBindings_frame]
    rw [hvu, hu]
    rfl

theorem slot_of_getElem? {l : LensStore} {k : Nat} {slot : LensSlot} (h : l.slots[k]? = some slot) : l.slot k = slot := by
  rw [LensStore.slot, List.getD_eq_getElem?_getD, h, Option.getD_some]

/-- Loaded contents are apart (R110). -/
theorem loaded_apart {l : LensStore} {places : List NvPlace} (h : l.slots = loadSlots [] places) {j k : Nat} (hne : j ≠ k)
    (x : BitVec 32) (hj : (l.slot j).identity = some x) : (l.slot k).identity ≠ some x := by
  have later : ∀ m n, m < n → (l.slot m).identity = some x → (l.slot n).identity ≠ some x := by
    intro m n hlt hm hn
    have hget : ∀ i, (l.slot i).identity = some x → (loadSlots [] places)[i]? = some (l.slot i) := fun i hi => by
      by_cases hlen : i < l.slots.length
      · rw [← h, slot_eq_getElem hlen, List.getElem?_eq_getElem hlen]
      · rw [slot_outside (Nat.le_of_not_lt hlen)] at hi
        cases hi
    obtain ⟨c, hc, rfl⟩ := Option.map_eq_some_iff.1 hn
    exact ((loadSlots_mem (hget n hn)).2 c hc).2 (.inr ⟨m, hlt, _, hget m hm, hm⟩)
  obtain hlt | hlt := Nat.lt_or_gt_of_ne hne
  · exact later j k hlt hj
  · exact fun hk => later k j hlt hk hj

theorem finishLoad_boundByIdentity {s : State} (h : s.lts.nv.length = 8) : (finishLoad s).boundByIdentity := by
  rw [finishLoad_eq]
  refine boundByIdentity_of_apart ((loadSlots_length _ _).trans h) (fun j k _ _ hne => loaded_apart rfl hne) fun e => ?_
  exact (PerEye_get_of _ _).trans (bindingOf_congr e rfl rfl)

/-- Settles O48: the save takes the image, its end stores it, and the load judges the places. -/
theorem savesAndLoads : Obligations.SavesAndLoads := by
  refine ⟨fun s slot pad hs => ⟨fun hslot => ?_, fun hslot hstore => ?_, fun hslot hstore => ?_⟩, fun s h => ?_,
    fun s r h => ⟨_, rfl, ?_⟩, fun s h => ?_, fun s hload hheld hnv => ?_⟩
  · rw [exec_save_serves slot pad s hs, decideSave, if_pos (show 8 ≤ slot.toNat from hslot)]
    rfl
  · rw [exec_save_serves slot pad s hs, decideSave, if_neg (by omega), if_pos (by simpa using hstore)]
    rfl
  · rw [exec_save_serves slot pad s hs, decideSave, if_neg (by omega), if_neg (by simpa using hstore)]
    have himage : (s.lts.slot slot.toNat).image =
        match (s.lts.slot slot.toNat).contents with | some c => c.image | none => emptyImage := by
      rw [LensSlot.image]
      cases (s.lts.slot slot.toNat).contents <;> rfl
    refine congrArg Host.Outcome.next (Eq.trans ?_ (congrArg (fun image => ({ s with
      lts := { s.lts with
        store := .saving, nv := s.lts.nv.set slot.toNat .unfinished, saving := some ⟨slot.toNat, image, s.timebase⟩ }
      rcp := s.rcpAnswer (.save slot) pad .done } : State)) himage))
    rfl
  · change Host.Outcome.next (completeSave s) = _
    rw [completeSave, h]
  · rw [completeSave, h]
    rfl
  · change Host.Outcome.next (completeLoad s) = _
    rw [completeLoad, if_neg]
    rintro ⟨hload, hheld⟩
    obtain h | h := h
    · exact h hload
    · rw [hheld] at h
      cases h
  · have hexec : exec .loadComplete s = .next (finishLoad s) := by
      change Host.Outcome.next (completeLoad s) = _
      rw [completeLoad, if_pos ⟨hload, hheld⟩]
    have hslots : (finishLoad s).lts.slots = loadSlots [] s.lts.nv := by rw [finishLoad_eq]
    have hlen : (finishLoad s).lts.slots.length = 8 := by rw [hslots, loadSlots_length, hnv]
    refine ⟨_, hexec, ?_, hlen, finishLoad_boundByIdentity hnv, fun e => ?_, fun n => ?_, fun k hk => ?_⟩
    · rw [finishLoad_eq]
      rfl
    · rw [finishLoad_eq]
      obtain ⟨bound, hbound⟩ : ∃ f, f =
          (s.mapLts fun l => { l with slots := loadSlots [] s.lts.nv, store := .ready }).bindingOf := ⟨_, rfl⟩
      simp only [← hbound, PerEye_get_of, LensMatch.clearedFor]
      refine ⟨fun hsame => ?_, fun hnew => ?_⟩
      · simp [hsame]
      · simp [Ne.symm hnew]
    · have hany : ((loadSlots [] s.lts.nv).any LensSlot.bad = true) ↔ ∃ k, k < 8 ∧ ((finishLoad s).lts.slot k).bad = true := by
        rw [← hslots, List.any_eq_true]
        constructor
        · rintro ⟨slot, hmem, hbad⟩
          obtain ⟨k, hk, rfl⟩ := List.getElem_of_mem hmem
          exact ⟨k, by omega, by rw [slot_eq_getElem hk]; exact hbad⟩
        · rintro ⟨k, hk, hbad⟩
          rw [slot_eq_getElem (by omega)] at hbad
          exact ⟨_, List.getElem_mem _, hbad⟩
      rw [← hany, finishLoad_eq]
      dsimp only
      split
      · next h => simp [hasNotice_addNotice, h]
      · next h => simp [h]
    · have hget : ∀ j : Nat, (finishLoad s).lts.slots[j]? = (loadSlots [] s.lts.nv)[j]? := fun j => by rw [hslots]
      have hfound : ∀ x, foundBefore [] s.lts.nv k x ↔ ∃ j, j < k ∧ ((finishLoad s).lts.slot j).identity = some x := by
        intro x
        unfold foundBefore
        simp only [List.not_mem_nil, false_or, ← hget]
        refine exists_congr fun j => and_congr_right fun hj => ?_
        constructor
        · rintro ⟨slot, hslot, hx⟩
          rw [slot_of_getElem? hslot]
          exact hx
        · intro hx
          have hj8 : j < (finishLoad s).lts.slots.length := by omega
          exact ⟨(finishLoad s).lts.slot j, by rw [slot_eq_getElem hj8, List.getElem?_eq_getElem hj8], hx⟩
      refine ⟨fun hplace => ?_, fun bytes hplace => ?_⟩
      · obtain ⟨slot, hslot, -, hbad, -⟩ := loadSlots_place [] hplace
        exact (slot_of_getElem? ((hget k).trans hslot)).trans (hbad rfl)
      · obtain ⟨slot, hslot, hempty, hbad, hvalid⟩ := loadSlots_place [] hplace
        have hk : (finishLoad s).lts.slot k = slot := slot_of_getElem? ((hget k).trans hslot)
        rw [hk]
        refine ⟨fun hcond => hempty ((judgePlace_image bytes).trans (if_pos hcond)), fun hcond => ⟨fun hnone => hbad ?_, fun c hc => ?_⟩⟩
        · rw [judgePlace_image, if_neg hcond, hnone]
        · have hjudge : judgePlace (.image bytes) = .valid c := by rw [judgePlace_image, if_neg hcond, hc]
          obtain ⟨htaken, hfree⟩ := hvalid c hjudge
          rw [hfound] at htaken hfree
          refine ⟨htaken, fun h => hfree ?_⟩
          push Not
          exact h

end Sys2Proof.Machine
end

section
/-! PROOFS. The lens table store stays sound (O58): what each operation does to the CAPS held and to the store. -/

namespace Sys2Proof.Machine

/-! ## The CAPS held -/

theorem mapEye_caps {e e' : Eye} {g : EyePort → EyePort} {s : State} (hg : (g (s.eye e)).caps = (s.eye e).caps) :
    ((s.mapEye e g).eye e').caps = (s.eye e').caps := by
  rw [State.mapEye_eye]
  split
  · next h => rw [h, hg]
  · rfl

theorem State.placedAs.caps {s t : State} (h : s.placedAs t) (e : Eye) : (t.eye e).caps = (s.eye e).caps := (h.port e).2.1

theorem retire_caps (s : State) (e : Eye) : ((retire s).eye e).caps = (s.eye e).caps := by
  rw [retire, retireFrom_port]
  split <;> simp

theorem ageWindow_caps (s : State) (e : Eye) : ((ageWindow s).eye e).caps = (s.eye e).caps := by
  rw [ageWindow_port]
  split <;> simp

theorem departEye_caps (e e' : Eye) (s : State) : ((departEye e s).eye e').caps = (s.eye e').caps := by
  rw [departEye_eye]
  split <;> split <;> simp_all

theorem firePulse_caps (e e' : Eye) (p : Pulse) (s : State) : ((firePulse e p s).eye e').caps = (s.eye e').caps := by
  rw [firePulse_eye]
  split <;> simp_all

theorem matchFrame_caps (e e' : Eye) (f : RawFrame) (s : State) : ((matchFrame e f s).eye e').caps = (s.eye e').caps := by
  unfold matchFrame
  split
  · exact mapEye_caps rfl
  · exact (retire_caps _ e').trans (by simp)

theorem serveEye_caps (p : Plan) (e e' : Eye) (s : State) : ((serveEye p e s).eye e').caps = (s.eye e').caps := by
  have hwrite := (writeDirective_placedAs e (p.run e) s).caps e'
  unfold serveEye
  dsimp only
  (repeat' split) <;> simp_all

theorem completePlan_caps (s : State) (e : Eye) : ((completePlan s).eye e).caps = (s.eye e).caps := by
  unfold completePlan
  split
  · rfl
  · exact (serveEye_caps _ _ e _).trans (serveEye_caps _ _ e _)

theorem joinEye_caps (p : Plan) (e e' : Eye) (s : State) : ((joinEye p e s).eye e').caps = (s.eye e').caps := by
  unfold joinEye
  split
  · exact (setEyeState_placedAs e .running s).caps e'
  · rfl

theorem layPulse_caps (p : Plan) (e e' : Eye) (m : MarkNumber) (s : State) :
    ((layPulse p e m s).eye e').caps = (s.eye e').caps := by
  unfold layPulse
  dsimp only
  split
  · split
    · exact firePulse_caps e e' _ _
    · rfl
  · rfl

theorem rollMarkLaid_caps (m : Time) (plan : Plan) (s : State) (e : Eye) :
    ((rollMarkLaid m plan s).eye e).caps = (s.eye e).caps := by
  rw [rollMarkLaid, layPulse_caps, layPulse_caps, rollMarkOpened, openWindow, retire_caps, State.mapPe_eye, rollMarkJoined,
    joinEye_caps, joinEye_caps, ageWindow_caps, State.mapCg_eye]

theorem stopRunning_caps (e e' : Eye) (s : State) : ((stopRunning e s).eye e').caps = (s.eye e').caps := by
  unfold stopRunning
  split
  · exact (setEyeState_placedAs e .agreed s).caps e'
  · rfl

theorem rewriteOwed_caps (e e' : Eye) (s : State) : ((rewriteOwed e s).eye e').caps = (s.eye e').caps := by
  rw [rewriteOwed_eq]
  split
  · exact (writeDirective_placedAs e _ s).caps e'
  · rfl

/-- The drain of a rolling rig up to its held table changes (R6, R64). -/
def stoppedTake (s : State) : State :=
  rewriteOwed .right (rewriteOwed .left ((stopRunning .right (stopRunning .left
    (writeDirective .right .halt (writeDirective .left .halt (discardPlan s))))).mapCg Cadence.drain))

theorem enterDraining_eq (s : State) : enterDraining s = applyPendingOps (stoppedTake s) := rfl

@[simp] theorem stoppedTake_frame (s : State) :
    (stoppedTake s).timebase = s.timebase ∧ (stoppedTake s).cg = s.cg.drain ∧ (stoppedTake s).ae = s.ae ∧
    (stoppedTake s).tp = { s.tp with inProgress := none, prepared := none } ∧ (stoppedTake s).lts = s.lts ∧
    (stoppedTake s).lme = s.lme ∧ (stoppedTake s).pe = s.pe ∧ (stoppedTake s).pq = s.pq ∧ (stoppedTake s).rcp = s.rcp ∧
    (stoppedTake s).resets = s.resets ∧ (stoppedTake s).pending = s.pending := by
  simp [stoppedTake, stopRunning_tp, discardPlan]

theorem stoppedTake_caps (s : State) (e : Eye) : ((stoppedTake s).eye e).caps = (s.eye e).caps := by
  rw [stoppedTake, rewriteOwed_caps, rewriteOwed_caps, State.mapCg_eye, stopRunning_caps, stopRunning_caps,
    (writeDirective_placedAs _ _ _).caps, (writeDirective_placedAs _ _ _).caps, discardPlan_eye]

theorem eyeStart_caps (e e' : Eye) (n : Nat) (s : State) : ((eyeStart e n s).eye e').caps = (s.eye e').caps := by
  unfold eyeStart
  (repeat' split)
  · rfl
  · exact mapEye_caps rfl
  · exact mapEye_caps rfl

theorem countLost_caps (e e' : Eye) (s : State) : ((countLost e s).eye e').caps = (s.eye e').caps := mapEye_caps rfl

theorem placeReport_caps (e e' : Eye) (r : Option Report) (s : State) : ((placeReport e r s).eye e').caps = (s.eye e').caps := by
  unfold placeReport
  (repeat' split)
  · exact countLost_caps e e' s
  · exact countLost_caps e e' s
  · rfl
  · exact countLost_caps e e' s
  · exact mapEye_caps rfl

theorem eyeEnd_caps (e e' : Eye) (n : Nat) (r : Option Report) (s : State) :
    ((eyeEnd e n r s).eye e').caps = (s.eye e').caps := by
  obtain ⟨u, hu⟩ : ∃ u, u = (eyeStart e 0 s).mapEye e fun p => { p with txn := p.txn.map (EyeTxn.clock n) } := ⟨_, rfl⟩
  have hcaps : (u.eye e').caps = (s.eye e').caps := by
    rw [hu]
    exact (mapEye_caps rfl).trans (eyeStart_caps e e' 0 s)
  have hclosed : ∀ g : EyePort → EyePort, (∀ p, (g p).caps = p.caps) → ((u.mapEye e g).eye e').caps = (s.eye e').caps :=
    fun g hg => (mapEye_caps (hg _)).trans hcaps
  unfold eyeEnd
  rw [← hu]
  dsimp only
  (repeat' split)
  · exact (placeReport_caps e e' r _).trans (hclosed _ fun _ => rfl)
  · exact hclosed _ fun _ => rfl
  · exact hclosed _ fun _ => rfl

/-! ## Keeping the form -/

theorem State.storeForm.congr {s t : State} (h : s.storeForm) (hlts : t.lts = s.lts)
    (hcaps : ∀ e, (t.eye e).caps = (s.eye e).caps) : t.storeForm := by
  unfold State.storeForm State.boundByIdentity at *
  simp only [hlts, hcaps]
  exact h

theorem State.storeSound.congr {s t : State} (h : s.storeSound) (hlts : t.lts = s.lts)
    (hcaps : ∀ e, (t.eye e).caps = (s.eye e).caps) (hrig : t.cg.rig ≠ .rolling → s.cg.rig ≠ .rolling) : t.storeSound := by
  rw [storeSound_iff] at *
  refine ⟨h.1.congr hlts hcaps, fun ht => ?_⟩
  rw [hlts]
  exact h.2 (hrig ht)

theorem State.storeSound.form {s : State} (h : s.storeSound) : s.storeForm := ((storeSound_iff s).1 h).1

theorem State.storeForm.apart {s : State} (h : s.storeForm) {j k : Nat} (hj : j < 8) (hk : k < 8) (hne : j ≠ k) (x : BitVec 32)
    (hx : (s.lts.slot j).identity = some x) : (s.lts.slot k).identity ≠ some x :=
  ((h.2.2.2.2.1 j k hj hk hne).1 x hx).1

theorem State.storeSound.placedAs {s t : State} (h : s.storeSound) (hplaced : s.placedAs t) : t.storeSound :=
  h.congr hplaced.blocks.2.2.2.2.1 hplaced.caps fun ht => by rwa [hplaced.blocks.2.1] at ht

theorem State.storeForm.placedAs {s t : State} (h : s.storeForm) (hplaced : s.placedAs t) : t.storeForm :=
  h.congr hplaced.blocks.2.2.2.2.1 hplaced.caps

theorem applyPendingOps_storeSound {s : State} (h : s.storeForm) : (applyPendingOps s).storeSound :=
  (storeSound_iff _).2 ⟨applyPendingOps_storeForm h, fun _ => applyPendingOps_pending s⟩

theorem enterDraining_storeSound {s : State} (h : s.storeForm) : (enterDraining s).storeSound := by
  rw [enterDraining_eq]
  exact applyPendingOps_storeSound (h.congr (by simp) (stoppedTake_caps s))

theorem testLoss_storeSound (e : Eye) {s : State} (h : s.storeSound) : (testLoss e s).storeSound := by
  unfold testLoss
  split
  · exact enterDraining_storeSound h.form
  · exact h

theorem planStart_lts (s : State) : (planStart s).lts = (applyPendingOps s).lts := by
  unfold planStart
  dsimp only
  split <;> rfl

theorem planStart_storeSound {s : State} (h : s.storeForm) : (planStart s).storeSound := by
  rw [storeSound_iff]
  refine ⟨(applyPendingOps_storeForm h).congr (planStart_lts s) fun e => by simp, fun _ => ?_⟩
  rw [planStart_lts]
  exact applyPendingOps_pending s

/-- The CAPS of an eye replaced: the eye is bound by the new identity (R105). -/
theorem holdCaps_storeForm (e : Eye) (c : Option Caps) {s : State} (h : s.storeForm) : (holdCaps e c s).storeForm := by
  have hapart := @State.storeForm.apart s h
  obtain ⟨hlen, hnv, hstaging, hsound, hslots, hsaving, hbound⟩ := h
  obtain ⟨u, hu⟩ : ∃ u, u = s.mapEye e fun p => { p with caps := c } := ⟨_, rfl⟩
  have hlts : (holdCaps e c s).lts = { s.lts with binding := s.lts.binding.set e (u.bindingOf e) } := by
    rw [holdCaps, ← hu, evalBinding_lts, hu]
    rfl
  have hcaps : ∀ e', (holdCaps e c s).eye e' = u.eye e' := fun e' => by rw [holdCaps, ← hu, evalBinding_eye]
  have hslot : ∀ k, (holdCaps e c s).lts.slot k = s.lts.slot k := fun k => by
    unfold LensStore.slot
    rw [hlts]
  have hbound' : (holdCaps e c s).boundByIdentity := by
    refine boundByIdentity_of_apart (by rw [hlts]; exact hlen) (fun j k hj hk hne x => ?_) fun e' => ?_
    · rw [hslot, hslot]
      exact hapart hj hk hne x
    · have hof : (holdCaps e c s).bindingOf e' = u.bindingOf e' :=
        bindingOf_congr e' (by rw [hcaps]) (by rw [hlts, hu]; rfl)
      rw [hof, hlts]
      refine (PerEye_get_set _ _ _ _).trans ?_
      split
      · next he => rw [he]
      · next he =>
        rw [((boundByIdentity_iff hlen).1 hbound).1, hu]
        refine (bindingOf_congr (s := s) (t := s.mapEye e fun p => { p with caps := c }) e' ?_ rfl).symm
        rw [State.mapEye_eye, if_neg he]
  refine ⟨by rw [hlts]; exact hlen, by rw [hlts]; exact hnv, by rw [hlts]; exact hstaging, by rw [hlts]; exact hsound, ?_,
    by rw [hlts]; exact hsaving, hbound'⟩
  simp only [hslot]
  exact hslots

theorem holdCaps_storeSound (e : Eye) (c : Option Caps) {s : State} (h : s.storeSound) : (holdCaps e c s).storeSound := by
  rw [storeSound_iff] at *
  refine ⟨holdCaps_storeForm e c h.1, fun hrig => ?_⟩
  have hslots : (holdCaps e c s).lts.slots = s.lts.slots := by
    rw [holdCaps, evalBinding_lts]
    rfl
  rw [hslots]
  exact h.2 (by simpa using hrig)

theorem departEye_storeSound (e : Eye) {s : State} (h : s.storeSound) : (departEye e s).storeSound :=
  h.congr (by simp) (fun e' => departEye_caps e e' s) (by simp)

theorem clearExclusion_storeSound {s : State} (h : s.storeSound) : (clearExclusion s).storeSound :=
  h.congr rfl (fun _ => rfl) id

theorem emptySlot_storeSound (e : Eye) {s : State} (h : s.storeSound) : (emptySlot e s).storeSound :=
  h.congr rfl (fun _ => mapEye_caps rfl) id

theorem leaveTake_storeSound (e : Eye) {s : State} (h : s.storeSound) : (leaveTake e s).storeSound :=
  testLoss_storeSound e (h.placedAs (raise_placedAs _ s))

theorem rejoinTest_placedAs (e : Eye) (c : Caps) (s : State) : s.placedAs (rejoinTest e c s) := by
  unfold rejoinTest
  dsimp only
  (repeat' split)
  · exact waitEye_placedAs e _ _ s
  · exact waitEye_placedAs e _ _ s
  · exact (setAgreement_placedAs _ s).trans (proposeEye_placedAs e _ _)

theorem invalidOut_storeSound (e : Eye) {s : State} (h : s.storeSound) : (invalidOut e s).storeSound := by
  refine holdCaps_storeSound e none (clearExclusion_storeSound (State.storeSound.placedAs ?_ (waitEye_placedAs e _ _ _)))
  split
  · exact departEye_storeSound e h
  · exact h

theorem rejoinOut_storeSound (e : Eye) (c : Caps) {s : State} (h : s.storeSound) : (rejoinOut e c s).storeSound := by
  have hheld := holdCaps_storeSound e (some c) (clearExclusion_storeSound h)
  unfold rejoinOut
  split
  · exact leaveTake_storeSound e ((departEye_storeSound e hheld).placedAs (setEyeState_placedAs e .held _))
  · exact hheld

theorem takeCaps_storeSound (e : Eye) (raw : RawCaps) {s : State} (h : s.storeSound) : (takeCaps e raw s).storeSound := by
  unfold takeCaps
  split
  · have hout := invalidOut_storeSound e h
    rw [invalidCaps_eq]
    (repeat' split)
    · exact (hout.placedAs (setAgreement_placedAs none _)).placedAs (partnerWaits_placedAs e.other _)
    · exact leaveTake_storeSound e hout
    · exact hout
  · next c _ =>
    split
    · have hchosen := (holdCaps_storeSound e (some c) (clearExclusion_storeSound h)).placedAs (runChoice_placedAs (some e) _)
      unfold validCapsSetup
      dsimp only
      split
      · exact hchosen.congr rfl (fun _ => rfl) id
      · exact hchosen
    · rw [validCapsTake_eq]
      exact (rejoinOut_storeSound e c h).placedAs (rejoinTest_placedAs e c _)

theorem takeRefuse_storeSound (e : Eye) (index : Byte) {s : State} (h : s.storeSound) : (takeRefuse e index s).storeSound := by
  unfold takeRefuse
  split
  · split
    · split
      · next a _ =>
        have hexcluded : (excludePair a s).storeSound := h.congr rfl (fun _ => rfl) id
        exact hexcluded.placedAs (runChoice_placedAs none _)
      · exact h
    · exact h.placedAs (waitEye_placedAs e _ _ s)
  · exact h.congr rfl (fun e' => countLost_caps e e' s) id

theorem takeAccept_storeSound (e : Eye) (index : Byte) {s : State} (h : s.storeSound) : (takeAccept e index s).storeSound := by
  unfold takeAccept
  split
  · exact h.placedAs ((setEyeState_placedAs e .agreed s).trans (writeDirective_placedAs e .halt _))
  · exact h.congr rfl (fun e' => countLost_caps e e' s) id

theorem clearPrevious_storeSound (e : Eye) {s : State} (h : s.storeSound) : (clearPrevious e s).storeSound :=
  h.congr rfl (fun _ => rfl) id

theorem agreementAfterLeave_storeSound (e : Eye) {s : State} (h : s.storeSound) : (agreementAfterLeave e s).storeSound := by
  have hcleared := clearExclusion_storeSound h
  unfold agreementAfterLeave
  dsimp only
  (repeat' split)
  · exact (hcleared.placedAs (setAgreement_placedAs none _)).placedAs (waitEye_placedAs e.other _ _ _)
  · exact hcleared.placedAs (setAgreement_placedAs none _)
  · exact hcleared

theorem leaveAttached_storeSound (e : Eye) {s : State} (h : s.storeSound) : (leaveAttached e s).storeSound := by
  have hreset : (s.mapEye e EyePort.partialReset).storeSound := h.congr rfl (fun _ => mapEye_caps rfl) id
  have hout : (detachedOut e s).storeSound := by
    refine holdCaps_storeSound e none (State.storeSound.placedAs ?_ (setEyeState_placedAs e .detached _))
    split
    · exact departEye_storeSound e hreset
    · exact clearPrevious_storeSound e hreset
  have hafter := agreementAfterLeave_storeSound e (hout.placedAs (raise_placedAs .eyeChange _))
  rw [leaveAttached_eq]
  split
  · exact testLoss_storeSound e hafter
  · exact hafter

end Sys2Proof.Machine
end

section
/-! PROOFS. The lens table store stays sound (O58): the store's own requests, the marks, the resets, and the statement. -/

namespace Sys2Proof.Machine

/-! ## The store's requests -/

/-- The form does not see what is not a slot's contents or its held change. -/
theorem State.storeForm.sameSlots {s t : State} (h : s.storeForm) (hlen : t.lts.slots.length = 8) (hnv : t.lts.nv.length = 8)
    (hstaging : t.lts.staging.length = 400) (hbinding : t.lts.binding = s.lts.binding)
    (hslot : ∀ k, (t.lts.slot k).contents = (s.lts.slot k).contents ∧ (t.lts.slot k).pending = (s.lts.slot k).pending)
    (hsaving : t.lts.store = .saving ↔ t.lts.saving.isSome = true) (hcaps : ∀ e, (t.eye e).caps = (s.eye e).caps) :
    t.storeForm := by
  obtain ⟨hlen', -, -, hsound, hapart, -, hbound⟩ := h
  rw [forall_slots_iff hlen'] at hsound
  refine ⟨hlen, hnv, hstaging, (forall_slots_iff hlen _).2 fun k hk => ?_, ?_, hsaving, ?_⟩
  · unfold LensSlot.sound
    rw [(hslot k).1, (hslot k).2]
    exact hsound k hk
  · unfold LensSlot.apart LensSlot.identity LensSlot.pendingIdentity at *
    simp only [fun k => (hslot k).1, fun k => (hslot k).2]
    exact hapart
  · unfold State.boundByIdentity at *
    simp only [hbinding, hcaps, fun k => (hslot k).1]
    exact hbound

/-- A slot names an identity: its contents or its held change does. -/
def LensSlot.names (l : LensSlot) (x : BitVec 32) : Prop := l.identity = some x ∨ l.pendingIdentity = some x

/-- One slot changed, to what no other slot names. -/
theorem State.storeForm.slotChanged {s t : State} (h : s.storeForm) {k : Nat} (hlen : t.lts.slots.length = 8)
    (hrest : ∃ slots binding, t.lts = { s.lts with slots := slots, binding := binding })
    (hother : ∀ j, j ≠ k → t.lts.slot j = s.lts.slot j) (hsound : (t.lts.slot k).sound)
    (hnew : ∀ x, (t.lts.slot k).names x → ∀ j, j < 8 → j ≠ k → ¬ (s.lts.slot j).names x)
    (hbound : t.boundByIdentity) : t.storeForm := by
  obtain ⟨hlen', hnv, hstaging, hsounds, hapart, hsaving, -⟩ := h
  rw [forall_slots_iff hlen'] at hsounds
  obtain ⟨slots, binding, hlts⟩ := hrest
  refine ⟨hlen, by rw [hlts]; exact hnv, by rw [hlts]; exact hstaging, (forall_slots_iff hlen _).2 fun j hj => ?_,
    fun i j hi hj hne => ?_, by rw [hlts]; exact hsaving, hbound⟩
  · by_cases hjk : j = k
    · rwa [hjk]
    · rw [hother j hjk]
      exact hsounds j hj
  · by_cases hik : i = k
    · have hjk : j ≠ k := fun h => hne (hik.trans h.symm)
      rw [hik, hother j hjk]
      exact ⟨fun x hx => ⟨fun hj' => hnew x (.inl hx) j hj hjk (.inl hj'), fun hj' => hnew x (.inl hx) j hj hjk (.inr hj')⟩,
        fun x hx hj' => hnew x (.inr hx) j hj hjk (.inr hj')⟩
    · by_cases hjk : j = k
      · rw [hother i hik, hjk]
        exact ⟨fun x hx => ⟨fun hj' => hnew x (.inl hj') i hi hik (.inl hx), fun hj' => hnew x (.inr hj') i hi hik (.inl hx)⟩,
          fun x hx hj' => hnew x (.inr hj') i hi hik (.inr hx)⟩
      · rw [hother i hik, hother j hjk]
        exact hapart i j hi hj hne

theorem State.storeForm.names_apart {s : State} (h : s.storeForm) {j k : Nat} (hj : j < 8) (hk : k < 8) (hne : j ≠ k)
    {x : BitVec 32} (hx : (s.lts.slot k).identity = some x) : ¬ (s.lts.slot j).names x := by
  obtain ⟨-, -, -, -, hapart, -, -⟩ := h
  rintro (hj' | hj')
  · exact ((hapart k j hk hj (Ne.symm hne)).1 x hx).1 hj'
  · exact ((hapart k j hk hj (Ne.symm hne)).1 x hx).2 hj'

/-- What a change may bring: a sound copy that no other slot names. -/
def PendingOp.fitsSlot (op : PendingOp) (k : Nat) (l : LensStore) : Prop :=
  ∀ copy, op = .commit copy → copy.sound ∧ ∀ j, j < 8 → j ≠ k → ¬ (l.slot j).names copy.table.identity

theorem LensSlot.apply_sound {l : LensSlot} {op : PendingOp} (hop : ∀ copy, op = .commit copy → copy.sound) :
    (l.apply op).sound := by
  rw [LensSlot.apply_eq]
  refine ⟨fun c hc => ?_, fun c hc => (by cases hc)⟩
  cases op with
  | commit copy =>
    obtain rfl : copy = c := Option.some.inj hc
    exact hop copy rfl
  | discard => cases hc

theorem LensSlot.apply_names {l : LensSlot} {op : PendingOp} {x : BitVec 32} (h : (l.apply op).names x) :
    ∃ copy, op = .commit copy ∧ copy.table.identity = x := by
  rw [LensSlot.apply_eq] at h
  cases op with
  | commit copy =>
    rcases h with h | h
    · exact ⟨copy, rfl, Option.some.inj h⟩
    · cases h
  | discard => rcases h with h | h <;> cases h

theorem holdChange_storeForm {s : State} (h : s.storeForm) {k : Nat} {op : PendingOp} (hk : k < 8)
    (hop : op.fitsSlot k s.lts) :
    (s.mapLts (LensStore.mapSlot k fun l => { l with pending := some op })).storeForm := by
  have hlen := h.1
  have hsound := (forall_slots_iff hlen _).1 h.2.2.2.1 k hk
  have hslot : ∀ j, (s.lts.mapSlot k fun l => { l with pending := some op }).slot j =
      if j = k then { s.lts.slot k with pending := some op } else s.lts.slot j := fun j => mapSlot_slot k j _ s.lts (by omega)
  have hsame := hslot k
  rw [if_pos rfl] at hsame
  refine h.slotChanged ((mapSlot_length _ _ _).trans hlen) ⟨_, _, rfl⟩ (fun j hj => (hslot j).trans (if_neg hj)) ?_ ?_ ?_
  · rw [State.mapLts_lts, hsame]
    exact ⟨hsound.1, fun c hc => (hop c (Option.some.inj hc)).1⟩
  · rw [State.mapLts_lts, hsame]
    rintro x (hx | hx) j hj hjk
    · exact h.names_apart hj hk hjk hx
    · obtain ⟨copy, hcopy, rfl⟩ := (LensSlot.pendingIdentity_eq_some _ _).1 hx
      exact (hop copy (Option.some.inj hcopy)).2 j hj hjk
  · have hcontents : ∀ j, ((s.lts.mapSlot k fun l => { l with pending := some op }).slot j).contents =
        (s.lts.slot j).contents := fun j => by
      rw [hslot]
      split
      · next hj => rw [hj]
      · rfl
    obtain ⟨-, -, -, -, -, -, hbound⟩ := h
    unfold State.boundByIdentity at *
    simp only [State.mapLts_lts, hcontents]
    exact hbound

theorem applyOp_storeForm {s : State} (h : s.storeForm) {k : Nat} {op : PendingOp} (hk : k < 8)
    (hop : op.fitsSlot k s.lts) : (applyOp k op s).storeForm := by
  obtain ⟨hlen, hsame, hother, hbound⟩ := applyOp_applied (op := op) hk h.1 h.2.2.2.2.2.2 fun j x hj hjk hx hj' => by
    obtain ⟨copy, hcopy, rfl⟩ := LensSlot.apply_names (.inl hx)
    exact (hop copy hcopy).2 j hj hjk (.inl hj')
  refine h.slotChanged hlen ?_ hother ?_ ?_ hbound
  · rw [applyOp_eq]
    exact ⟨_, _, rfl⟩
  · rw [hsame]
    exact LensSlot.apply_sound fun copy hcopy => (hop copy hcopy).1
  · rw [hsame]
    intro x hx
    obtain ⟨copy, hcopy, rfl⟩ := LensSlot.apply_names hx
    exact (hop copy hcopy).2

theorem changeSlot_storeSound {s : State} (h : s.storeSound) {k : Nat} {op : PendingOp} (hk : k < 8)
    (hop : op.fitsSlot k s.lts) : (changeSlot k op s).storeSound := by
  have hform := h.form
  rw [storeSound_iff] at *
  unfold changeSlot
  split
  · next hheld => exact ⟨holdChange_storeForm hform hk hop, fun hrig => absurd ((holdsChange_iff s k).1 hheld).1 hrig⟩
  · have happlied := applyOp_storeForm hform hk hop
    refine ⟨happlied, fun hrig => (forall_slots_iff happlied.1 _).2 fun j hj => ?_⟩
    have hnone := (forall_slots_iff hform.1 _).1 (h.2 (by simpa using hrig))
    have hslot : (applyOp k op s).lts.slot j = if j = k then (s.lts.slot k).apply op else s.lts.slot j := by
      rw [applyOp_eq]
      exact mapSlot_slot k j _ s.lts (by have := hform.1; omega)
    rw [hslot]
    split
    · rw [LensSlot.apply_eq]
    · exact hnone j hj

/-- A copy that COMMIT accepts fits its slot (R98 to R101). -/
theorem commit_fitsSlot {l : LensStore} {k : Nat} {copy : LensImage} (hcopy : readImage l.staging = some copy)
    (hclash : l.clashes k copy.table.identity = false) : (PendingOp.commit copy).fitsSlot k l := by
  intro copy' hcopy'
  obtain rfl : copy = copy' := by cases hcopy'; rfl
  refine ⟨((lensImagesAreReadBack _ _).1 hcopy).1, fun j hj hjk hnames => ?_⟩
  obtain ⟨hcontents, hpending⟩ := (clashes_eq_false l k _).1 hclash j hj hjk
  rcases hnames with hx | hx
  · exact hcontents hx
  · obtain ⟨c, hc, hx⟩ := (LensSlot.pendingIdentity_eq_some _ _).1 hx
    exact hpending c hc hx

/-- The staging buffer, the save and the load leave the slots' contents and held changes: what is left is the sizes. -/
theorem State.storeSound.sameSlots {s t : State} (h : s.storeSound) (hlen : t.lts.slots.length = 8)
    (hnv : t.lts.nv.length = 8) (hstaging : t.lts.staging.length = 400) (hbinding : t.lts.binding = s.lts.binding)
    (hslot : ∀ k, (t.lts.slot k).contents = (s.lts.slot k).contents ∧ (t.lts.slot k).pending = (s.lts.slot k).pending)
    (hsaving : t.lts.store = .saving ↔ t.lts.saving.isSome = true) (hcaps : ∀ e, (t.eye e).caps = (s.eye e).caps)
    (hrig : t.cg.rig = s.cg.rig) : t.storeSound := by
  have hform := h.form
  rw [storeSound_iff] at *
  refine ⟨hform.sameSlots hlen hnv hstaging hbinding hslot hsaving hcaps, fun ht => (forall_slots_iff hlen _).2 fun k hk => ?_⟩
  rw [(hslot k).2]
  exact (forall_slots_iff hform.1 _).1 (h.2 (hrig ▸ ht)) k hk

theorem staging_storeSound {s : State} (h : s.storeSound) {bytes : List Byte} (hbytes : bytes.length = 400) :
    (s.mapLts fun l => { l with staging := bytes }).storeSound := by
  obtain ⟨hlen, hnv, -, -, -, hsaving, -⟩ := h.form
  exact h.sameSlots hlen hnv hbytes rfl (fun _ => ⟨rfl, rfl⟩) hsaving (fun _ => rfl) rfl

theorem beginSave_storeSound {s : State} (h : s.storeSound) (k : Nat) (now : Time) :
    (s.mapLts (LensStore.beginSave k now)).storeSound := by
  obtain ⟨hlen, hnv, hstaging, -⟩ := h.form
  exact h.sameSlots hlen (by simpa [LensStore.beginSave] using hnv) hstaging rfl (fun _ => ⟨rfl, rfl⟩)
    (by simp [LensStore.beginSave]) (fun _ => rfl) rfl

theorem mapSlot_bad (k j : Nat) (l : LensStore) :
    ((l.mapSlot k fun slot => { slot with bad := false }).slot j).contents = (l.slot j).contents ∧
      ((l.mapSlot k fun slot => { slot with bad := false }).slot j).pending = (l.slot j).pending := by
  by_cases hk : k < l.slots.length
  · rw [mapSlot_slot k j _ l hk]
    split
    · next hj => rw [hj]; exact ⟨rfl, rfl⟩
    · exact ⟨rfl, rfl⟩
  · rw [LensStore.mapSlot, List.modify_eq_self (by omega)]
    exact ⟨rfl, rfl⟩

theorem completeSave_storeSound {s : State} (h : s.storeSound) : (completeSave s).storeSound := by
  obtain ⟨hlen, hnv, hstaging, -⟩ := h.form
  unfold completeSave
  split
  · exact h
  · next r _ =>
    refine State.storeSound.placedAs ?_ (raise_placedAs _ _)
    refine h.sameSlots (t := (waitUntil (after r.accepted Config.saveMinTicks) s).mapLts (LensStore.endSave r))
      ((mapSlot_length _ _ _).trans hlen) ?_ hstaging rfl (fun k => mapSlot_bad r.slot k s.lts) ?_ (fun e => by simp) (by simp)
    · exact (List.length_set ..).trans hnv
    · exact ⟨fun h => (by cases h), fun h => (by cases h)⟩

/-! ## The load and the resets -/

theorem judgePlace_sound {place : NvPlace} {c : LensImage} (h : judgePlace place = .valid c) : c.sound := by
  cases place with
  | image bytes =>
    rw [judgePlace_image] at h
    split at h
    · cases h
    · cases hread : readImage bytes with
      | none => rw [hread] at h; cases h
      | some contents =>
        rw [hread] at h
        obtain rfl : contents = c := by cases h; rfl
        exact ((lensImagesAreReadBack _ _).1 hread).1
  | unfinished => cases h

theorem finishLoad_storeSound {s : State} (h : s.storeSound) (hloading : s.lts.store = .loading) :
    (finishLoad s).storeSound := by
  obtain ⟨-, hnv, hstaging, -, -, hsaving, -⟩ := h.form
  have hbound := finishLoad_boundByIdentity hnv
  have hslots : (finishLoad s).lts.slots = loadSlots [] s.lts.nv := by rw [finishLoad_eq]
  have hlen : (finishLoad s).lts.slots.length = 8 := by rw [hslots, loadSlots_length, hnv]
  have hloaded : ∀ k, k < 8 → ((finishLoad s).lts.slot k).pending = none ∧ ((finishLoad s).lts.slot k).sound := fun k hk => by
    have hget : (loadSlots [] s.lts.nv)[k]? = some ((finishLoad s).lts.slot k) := by
      rw [← hslots, List.getElem?_eq_getElem (by omega), slot_eq_getElem (by omega)]
    obtain ⟨hnone, hvalid⟩ := loadSlots_mem hget
    refine ⟨hnone, fun c hc => ?_, fun c hc => ?_⟩
    · obtain ⟨⟨place, -, hjudged⟩, -⟩ := hvalid c hc
      exact judgePlace_sound hjudged
    · rw [hnone] at hc
      cases hc
  have hpending : ∀ k, k < 8 → ((finishLoad s).lts.slot k).pendingIdentity = none := fun k hk => by
    rw [LensSlot.pendingIdentity, (hloaded k hk).1]
  have hrest : (finishLoad s).lts.nv = s.lts.nv ∧ (finishLoad s).lts.staging = s.lts.staging ∧
      (finishLoad s).lts.store = .ready ∧ (finishLoad s).lts.saving = s.lts.saving := by
    rw [finishLoad_eq]
    exact ⟨rfl, rfl, rfl, rfl⟩
  obtain ⟨hnv', hstaging', hstore', hsaving'⟩ := hrest
  rw [storeSound_iff]
  refine ⟨⟨hlen, by rw [hnv', hnv], by rw [hstaging', hstaging], (forall_slots_iff hlen _).2 fun k hk => (hloaded k hk).2,
    fun j k hj hk hne => ⟨fun x hx => ⟨loaded_apart hslots hne x hx, ?_⟩, fun x hx => ?_⟩, ?_, hbound⟩,
    fun _ => (forall_slots_iff hlen _).2 fun k hk => (hloaded k hk).1⟩
  · rw [hpending k hk]
    exact fun h => (by cases h)
  · rw [hpending j hj] at hx
    cases hx
  · rw [hstore', hsaving']
    rw [hloading] at hsaving
    exact ⟨fun h => (by cases h), fun h => absurd (hsaving.2 h) (by decide)⟩

/-- An emptied store, with no CAPS held, is sound. -/
theorem atReset_storeSound {s : State} {nv : List NvPlace} (hlts : s.lts = .atReset nv) (hnv : nv.length = 8)
    (hcaps : ∀ e, (s.eye e).caps = none) : s.storeSound := by
  have hmem : ∀ l ∈ s.lts.slots, l = ⟨none, none, false⟩ := by
    rw [hlts]
    exact fun l hl => List.eq_of_mem_replicate hl
  have hlen : s.lts.slots.length = 8 := by rw [hlts]; rfl
  have hslot : ∀ k, k < 8 → s.lts.slot k = ⟨none, none, false⟩ := (forall_slots_iff hlen _).1 hmem
  rw [storeSound_iff]
  refine ⟨⟨hlen, by rw [hlts]; exact hnv, by rw [hlts]; exact emptyStaging_wf, fun l hl => ?_, fun j k hj hk _ => ?_, ?_,
    fun e k => ?_⟩, fun _ l hl => by rw [hmem l hl]⟩
  · rw [hmem l hl]
    exact ⟨fun c hc => (by cases hc), fun c hc => (by cases hc)⟩
  · rw [hslot j hj, hslot k hk]
    exact ⟨fun x hx => (by cases hx), fun x hx => (by cases hx)⟩
  · rw [hlts]
    exact ⟨fun h => (by cases h), fun h => (by cases h)⟩
  · rw [hcaps, hlts]
    exact ⟨fun h => (by cases e <;> cases h), fun ⟨_, _, _, _, h, _⟩ => (by cases h)⟩

theorem enforceReset_storeSound (k : ResetKind) {s : State} (h : s.storeSound) : (enforceReset k s).storeSound :=
  atReset_storeSound (nv := s.lts.nv) (by cases k <;> rfl) h.form.2.1 fun e => by cases e <;> cases k <;> rfl

theorem endReset_storeSound (k : ResetKind) {s : State} (h : s.storeSound) : (endReset k s).storeSound := by
  obtain ⟨u, hu⟩ : ∃ u, u = (advance (s.resets.remaining k) s).mapResets (Resets.lift k) := ⟨_, rfl⟩
  have hlifted : u.storeSound := h.congr (by rw [hu]; simp) (fun e => by rw [hu]; simp) (by rw [hu]; simp)
  unfold endReset
  rw [← hu]
  dsimp only
  (repeat' split)
  · exact hlifted
  · refine hlifted.congr rfl (fun e => ?_) id
    rw [releasePart_eye]
    split <;> rfl
  · exact h

/-! ## The take and its marks -/

theorem startTake_storeSound {s : State} (h : s.storeSound) : (startTake s).storeSound := by
  have hform := h.form
  unfold startTake
  dsimp only
  split
  · exact planStart_storeSound (hform.congr (by simp) fun e => by simp)
  · exact h.congr (by simp) (fun e => by simp) fun ht => absurd (by simp) ht

theorem rollingMarkEvent_storeSound (m : Time) {s : State} (h : s.storeSound) : (rollingMarkEvent m s).storeSound := by
  have hdone : (completePlan (waitUntil m s)).storeSound :=
    h.congr (by simp) (fun e => by rw [completePlan_caps, waitUntil_eye]; simp) (by simp)
  unfold rollingMarkEvent
  dsimp only
  split
  · exact hdone
  · next plan _ =>
    rw [rollMark_eq]
    exact planStart_storeSound (hdone.form.congr (by simp [rollMarkLaid, rollMarkOpened, rollMarkJoined])
      (rollMarkLaid_caps m plan _))

theorem returnChoice_placedAs (s : State) : s.placedAs (returnChoice s) := by
  unfold returnChoice
  dsimp only
  split
  · exact runChoice_placedAs none s
  · exact s.placedAs_refl

theorem drainMarkEvent_storeSound (m : Time) {s : State} (h : s.storeSound) (hrig : s.cg.rig = .draining) :
    (drainMarkEvent m s).storeSound := by
  obtain ⟨u, hu⟩ : ∃ u, u = ageWindow ((waitUntil m s).mapCg (Cadence.drainMark m (waitUntil m s).timebase)) := ⟨_, rfl⟩
  have haged : u.storeSound := by
    refine h.congr (by rw [hu]; simp) (fun e => ?_) fun _ => by rw [hrig]; decide
    rw [hu, ageWindow_caps, State.mapCg_eye, waitUntil_eye]
    simp
  have hu' : u.cg.rig = .draining := by rw [hu]; simp [hrig]
  unfold drainMarkEvent
  dsimp only
  rw [← hu]
  split
  · refine State.storeSound.placedAs ?_ (returnChoice_placedAs _)
    exact haged.congr rfl (fun _ => rfl) fun _ => by rw [hu']; decide
  · exact haged

theorem settleEye_storeSound (e : Eye) {s : State} (h : s.storeSound) : (settleEye e s).storeSound := by
  refine State.storeSound.placedAs ?_ (raise_placedAs _ _)
  exact (h.placedAs (waitEye_placedAs e _ _ s)).congr rfl (fun _ => mapEye_caps rfl) id

theorem decision_storeSound {s t : State} {r : Request} (h : s.storeSound) (hd : Decision s r t) : t.storeSound := by
  cases hd with
  | unchanged => exact h
  | profile p f hrig hf =>
    have hframe : (clearExclusion (s.mapAe fun a => { a with frame := f })).storeSound := h.congr rfl (fun _ => rfl) id
    exact hframe.placedAs (runChoice_placedAs none _)
  | toRef code hrig => exact h.congr rfl (fun _ => rfl) id
  | toFree code hrig => exact h.congr rfl (fun _ => rfl) id
  | rate target marks hsource => exact h.congr rfl (fun _ => rfl) (by simp [Cadence.setRate]; split <;> simp)
  | shutter mode value m => exact h.congr rfl (fun _ => rfl) id
  | demand axes focus iris zoom => exact h.congr rfl (fun _ => rfl) id
  | roll hroll => exact startTake_storeSound h
  | cut hrig => exact enterDraining_storeSound h.form
  | enable eye action e =>
    unfold enablePort
    split
    · exact h
    · refine h.congr rfl (fun _ => mapEye_caps ?_) id
      dsimp only
      split <;> rfl
  | disable eye action e =>
    have hoff : (s.mapEye e fun p => { p with enabled := false }).storeSound := h.congr rfl (fun _ => mapEye_caps rfl) id
    unfold disablePort
    dsimp only
    (repeat' split)
    · exact h
    · exact leaveAttached_storeSound e hoff
    · exact hoff.congr rfl (fun _ => mapEye_caps rfl) id
  | stageReset => exact staging_storeSound h emptyStaging_wf
  | stageWrite offset data hfits =>
    have hstaging := h.form.2.2.1
    exact staging_storeSound h (writeBytes_wf _ _ _ hstaging hfits)
  | commit slot copy hslot hcopy hclash => exact changeSlot_storeSound h hslot (commit_fitsSlot hcopy hclash)
  | discard slot hslot => exact changeSlot_storeSound h hslot fun copy hcopy => (by cases hcopy)
  | save slot hslot hstore => exact beginSave_storeSound h _ _
  | clear mask => exact h.congr rfl (fun _ => rfl) id

theorem Move.storeSound {c : Instr} {s t : State} (hs : s.storeSound) (h : Move s c t) : t.storeSound := by
  have taken : ∀ e, (emptySlot e s).storeSound := fun e => emptySlot_storeSound e hs
  have waited : ∀ n, (advance n s).storeSound := fun n => hs.congr (by simp) (fun e => by simp) (by simp)
  have clocked : ∀ m, (waitUntil m s).storeSound := fun m => waited _
  cases h with
  | nothing => exact hs
  | rcpStart early => exact hs.congr (by simp) (fun e => by simp [State.eye]) (by simp)
  | judged _ n v =>
    exact judged_keeps_of_decisions (fun _ _ h => h.congr rfl (fun _ => rfl) id) (fun _ _ _ => decision_storeSound)
      (fun k _ => enforceReset_storeSound k) n v hs
  | eyeStart e early => exact hs.congr (by simp) (fun e' => eyeStart_caps e e' early s) (by simp)
  | eyeEnd _ e n r => exact hs.congr (by simp) (fun e' => eyeEnd_caps e e' n r s) (by simp)
  | capsTaken e raw => exact takeCaps_storeSound e raw (taken e)
  | acceptTaken e index => exact takeAccept_storeSound e index (taken e)
  | refuseTaken e index => exact takeRefuse_storeSound e index (taken e)
  | frameTaken e f => exact (taken e).congr (by simp) (fun e' => matchFrame_caps e e' f _) (by simp)
  | presLevel _ e b => exact hs.congr rfl (fun _ => mapEye_caps rfl) id
  | presRise e =>
    refine hs.congr rfl (fun _ => mapEye_caps ?_) id
    unfold EyePort.rise
    dsimp only
    (repeat' split) <;> rfl
  | presFall e =>
    refine hs.congr rfl (fun _ => mapEye_caps ?_) id
    unfold EyePort.fall
    dsimp only
    (repeat' split) <;> rfl
  | settled e n h => exact settleEye_storeSound e (waited n)
  | detached e n => exact leaveAttached_storeSound e (waited n)
  | rollingMark m h => exact rollingMarkEvent_storeSound m hs
  | planComplete => exact hs.congr (by simp) (completePlan_caps s) (by simp)
  | drainMark m h => exact drainMarkEvent_storeSound m hs ((markKind_iff s).2.2.2.1 (dueMark_eq_some h).2.1)
  | leadMark m h => exact planStart_storeSound ((clocked m).form.congr (by simp) fun e => by simp)
  | setupMark m => exact (clocked m).congr rfl (fun _ => rfl) (by simp [setupMarkEvent, passMark_rig])
  | refinEdge => exact hs.congr (by simp) (fun e => by simp) (by simp [refEdge_rig])
  | windowClose w p =>
    have hclosed := closeRefWindow_eq w p s
    rw [hclosed]
    exact (clocked _).congr rfl (fun _ => rfl) (by simp [Cadence.closeWindow])
  | pulse e p h hin => exact (clocked p.time).congr (by simp) (fun e' => firePulse_caps e e' p _) (by simp)
  | pulseEnd e t => exact (clocked _).congr rfl (fun _ => mapEye_caps rfl) id
  | saveComplete => exact completeSave_storeSound hs
  | loadComplete =>
    unfold completeLoad
    split
    · next h => exact finishLoad_storeSound hs h.1
    · exact hs
  | pairStart early => exact hs.congr (by simp) (fun e => by simp) (by simp)
  | pairEnd n => exact hs.congr (by simp) (fun e => by simp) (by simp)
  | reset _ k => exact enforceReset_storeSound k hs
  | release k => exact endReset_storeSound k hs

/-- Settles O58: every move keeps the store sound, and a tick touches neither the store nor the CAPS. -/
theorem lensStoreStaysSound : Obligations.LensStoreStaysSound := fun _ _ hs h =>
  step_keeps (fun _ _ h => h.congr rfl (fun _ => rfl) id) (fun _ h => h.congr (by simp) (fun e => by simp) (by simp))
    (fun _ _ _ => Move.storeSound) hs h

end Sys2Proof.Machine
end

section
/-! PROOFS. Every setting and bounded number stays in its range (O59): the ranges block by block, and what keeps them. -/

namespace Sys2Proof.Machine

/-! ## The ranges, block by block -/

def Cadence.inRange (c : Cadence) : Prop :=
  rateInRange c.targetRate ∧ rateInRange c.currentRate ∧
    (∀ r, c.ramp = some r → rateInRange r.r0 ∧ rateInRange r.r1 ∧ r.k < r.marks ∧ r.marks ≤ 65535) ∧
    (∀ p, c.period = some p → 400000 ≤ p ∧ p ≤ 100000000) ∧
    c.lock.empty ≤ 2 ∧ c.seek.good ≤ 3 ∧ (c.seek.good ≠ 0 → c.seek.lastGood.isSome = true) ∧ c.drainCount ≤ 8

def Agreement.inRange (a : Agreement) : Prop := rateInRange a.ceiling ∧ 1000 ≤ a.floor ∧ a.floor ≤ 100000000

def AgreementEngine.inRange (a : AgreementEngine) : Prop := a.frame.inRange ∧ ∀ x, a.agreement = some x → x.inRange

def Caps.inRange (c : Caps) : Prop :=
  1 ≤ c.offers.length ∧ c.offers.length ≤ 6 ∧ (c.offers.map Offer.index).Nodup ∧ ∀ o ∈ c.offers, o.inRange

def LensMatch.inRange (l : LensMatch) : Prop :=
  (∀ a v, l.demand.get a = some v → v ≤ 65535) ∧ ∀ e, targetsInRange (l.previous.get e)

def PlanInProgress.inRange (p : PlanInProgress) : Prop :=
  ∀ e, targetsInRange (p.snapshot.lens.get e).previous ∧ ∀ x, (p.snapshot.lens.get e).table = some x → x.sound

def TriggerPlanner.inRange (t : TriggerPlanner) : Prop :=
  t.shutterInRange ∧ ∀ p, t.inProgress = some p → p.inRange

def LensStore.slotsSound (l : LensStore) : Prop := ∀ slot ∈ l.slots, slot.sound

theorem settingsInRange_iff (s : State) :
    s.settingsInRange ↔ s.cg.inRange ∧ s.ae.inRange ∧ (∀ e c, (s.eye e).caps = some c → c.inRange) ∧ s.tp.inRange ∧
      s.lme.inRange ∧ s.lts.slotsSound := by
  unfold State.settingsInRange Cadence.inRange AgreementEngine.inRange Agreement.inRange Caps.inRange LensMatch.inRange
    TriggerPlanner.inRange PlanInProgress.inRange LensStore.slotsSound
  tauto

/-- The ranges hold after an operation that keeps them block by block, and gives no eye CAPS. -/
theorem State.settingsInRange.keep {s t : State} (h : s.settingsInRange) (hcg : s.cg.inRange → t.cg.inRange)
    (hae : s.ae.inRange → t.ae.inRange) (hcaps : ∀ e, (t.eye e).caps = (s.eye e).caps)
    (htp : s.tp.inRange → t.tp.inRange) (hlme : s.lme.inRange → t.lme.inRange)
    (hlts : s.lts.slotsSound → t.lts.slotsSound) : t.settingsInRange := by
  rw [settingsInRange_iff] at *
  obtain ⟨hcg', hae', hcaps', htp', hlme', hlts'⟩ := h
  exact ⟨hcg hcg', hae hae', fun e c hc => hcaps' e c (by rw [← hcaps]; exact hc), htp htp', hlme hlme', hlts hlts'⟩

theorem State.settingsInRange.placedAs {s t : State} (h : s.settingsInRange) (hplaced : s.placedAs t)
    (hagreement : ∀ a, t.ae.agreement = some a → a.inRange) : t.settingsInRange := by
  refine State.settingsInRange.keep h ?_ (fun hae => ⟨?_, hagreement⟩) hplaced.caps ?_ ?_ ?_ <;> rw [hplaced.1]
  · exact id
  · exact hae.1
  · exact id
  · exact id
  · exact id

theorem State.settingsInRange.agreement {s : State} (h : s.settingsInRange) {a : Agreement} (ha : s.ae.agreement = some a) :
    a.inRange := ((settingsInRange_iff s).1 h).2.1.2 a ha

/-! ## The agreement record -/

theorem usedReadout_inRange {o : Offer} (h : o.inRange) (reversed : Bool) :
    1000 ≤ o.mode.readout reversed ∧ o.mode.readout reversed ≤ 10000000 := by
  obtain ⟨-, -, hlow, hhigh, hreversed, -⟩ := h
  unfold SensorMode.readout
  cases reversed with
  | false => exact ⟨hlow, hhigh⟩
  | true =>
    cases hr : o.mode.reversed with
    | none => exact ⟨hlow, hhigh⟩
    | some t => exact hreversed t hr

theorem perTick_ge {r : Nat} (h : 0 < r) (h' : r ≤ 100000000) : 1000 ≤ perTick r := by
  rw [perTick_eq, Nat.le_div_iff_mul_le (by omega)]
  omega

/-- A pair of offers in range has a record in range (R54). -/
theorem pairAgreement_inRange (f : TakeFrame) {l r : Offer} (hl : l.inRange) (hr : r.inRange) :
    (pairAgreement f l r).inRange := by
  have hleft := usedReadout_inRange hl (reverses f.orientation.left l.mode)
  have hright := usedReadout_inRange hr (reverses f.orientation.right r.mode)
  have hfloor : (pairAgreement f l r).floor =
      max (l.mode.readout (reverses f.orientation.left l.mode)) (r.mode.readout (reverses f.orientation.right r.mode)) +
        max l.mode.blank r.mode.blank := rfl
  have hceiling : (pairAgreement f l r).ceiling =
      min (min l.mode.maxRate r.mode.maxRate) (perTick (pairAgreement f l r).floor) := rfl
  obtain ⟨-, -, -, -, -, hlblank, hlmin, hlmax⟩ := hl
  obtain ⟨-, -, -, -, -, hrblank, hrmin, hrmax⟩ := hr
  have hlow : 1000 ≤ (pairAgreement f l r).floor := by omega
  have hhigh : (pairAgreement f l r).floor ≤ 100000000 := by omega
  have hper := perTick_ge (by omega) hhigh
  refine ⟨⟨?_, ?_⟩, hlow, hhigh⟩ <;> rw [hceiling] <;> omega

theorem choose_inRange {f : TakeFrame} {exclusion : List (Nat × Nat)} {l r : Caps} {a : Agreement} (hl : l.inRange)
    (hr : r.inRange) (h : choose f exclusion l.offers r.offers = some a) : a.inRange := by
  obtain ⟨x, hx, y, hy, -, rfl⟩ := mem_feasiblePairs.1 (bestOf_eq_some h).1
  exact pairAgreement_inRange f (hl.2.2.2 x hx) (hr.2.2.2 y hy)

theorem placeChoice_agreement (cause : Option Eye) (outcome : Option Agreement) (s : State) :
    (placeChoice cause outcome s).ae.agreement = outcome := by
  cases outcome with
  | none =>
    refine Eq.trans (b := (waitEye .right .held .noCommonMode
      (waitEye .left .held .noCommonMode (setAgreement none s))).ae.agreement) rfl ?_
    rw [waitEye_ae, waitEye_ae]
    rfl
  | some a =>
    rw [placeChoice_some]
    split
    · rw [(placeEqual_frame _ _ _ _).2.2.1, (placeEqual_frame _ _ _ _).2.2.1]
      rfl
    · rw [(proposeEye_frame _ _ _).2.2.1, (proposeEye_frame _ _ _).2.2.1]
      rfl

theorem runChoice_inRange (cause : Option Eye) {s : State} (h : s.settingsInRange) : (runChoice cause s).settingsInRange := by
  refine State.settingsInRange.placedAs h (runChoice_placedAs cause s) fun a ha => ?_
  have hcaps := ((settingsInRange_iff s).1 h).2.2.1
  unfold runChoice at ha
  split at ha
  · next l r hl hr =>
    rw [placeChoice_agreement] at ha
    exact choose_inRange (hcaps .left l hl) (hcaps .right r hr) ha
  · rw [awaitPeer_agreement] at ha
    cases ha
  · rw [awaitPeer_agreement] at ha
    cases ha
  · cases ha

theorem waitEye_inRange (e : Eye) (st : EyeState) (r : WaitReason) {s : State} (h : s.settingsInRange) :
    (waitEye e st r s).settingsInRange :=
  State.settingsInRange.placedAs h (waitEye_placedAs e st r s) fun a ha => h.agreement (by rw [waitEye_ae] at ha; exact ha)

theorem proposeEye_inRange (e : Eye) (a : Agreement) {s : State} (h : s.settingsInRange) :
    (proposeEye e a s).settingsInRange :=
  State.settingsInRange.placedAs h (proposeEye_placedAs e a s) fun b hb => h.agreement (by simpa using hb)

theorem setEyeState_inRange (e : Eye) (st : EyeState) {s : State} (h : s.settingsInRange) :
    (setEyeState e st s).settingsInRange :=
  State.settingsInRange.placedAs h (setEyeState_placedAs e st s) fun b hb => h.agreement (by simpa using hb)

theorem writeDirective_inRange (e : Eye) (d : Directive) {s : State} (h : s.settingsInRange) :
    (writeDirective e d s).settingsInRange :=
  State.settingsInRange.placedAs h (writeDirective_placedAs e d s) fun _ hb => h.agreement hb

theorem raise_inRange (n : Notice) {s : State} (h : s.settingsInRange) : (raise n s).settingsInRange :=
  State.settingsInRange.placedAs h (raise_placedAs n s) fun _ hb => h.agreement hb

theorem setAgreement_inRange {s : State} {a : Option Agreement} (h : s.settingsInRange) (ha : ∀ x, a = some x → x.inRange) :
    (setAgreement a s).settingsInRange :=
  State.settingsInRange.placedAs h (setAgreement_placedAs a s) ha

theorem mapEye_inRange (e : Eye) (g : EyePort → EyePort) {s : State} (h : s.settingsInRange)
    (hg : (g (s.eye e)).caps = (s.eye e).caps) : (s.mapEye e g).settingsInRange :=
  h.keep id id (fun _ => mapEye_caps hg) id id id

theorem countLost_inRange (e : Eye) {s : State} (h : s.settingsInRange) : (countLost e s).settingsInRange :=
  mapEye_inRange e _ h rfl

theorem clearExclusion_inRange {s : State} (h : s.settingsInRange) : (clearExclusion s).settingsInRange :=
  h.keep id id (fun _ => rfl) id id id

/-! ## The previous targets, the slots and the plans -/

theorem targetsInRange_none : targetsInRange (.all none) := fun a v h => by cases a <;> cases h

theorem clearedFor_inRange {l : LensMatch} (plan : Bool) (hit : Eye → Bool) (h : l.inRange) : (l.clearedFor plan hit).inRange := by
  refine ⟨h.1, fun e => ?_⟩
  have hget : (l.clearedFor plan hit).previous.get e = if hit e then .all none else l.previous.get e :=
    PerEye_get_of _ _
  rw [hget]
  split
  · exact targetsInRange_none
  · exact h.2 e

theorem LensSlot.apply_keepsSound {l : LensSlot} {op : PendingOp} (hop : ∀ copy, op = .commit copy → copy.sound) :
    l.sound → (l.apply op).sound := fun _ => LensSlot.apply_sound hop

theorem mapSlot_slotsSound {l : LensStore} (k : Nat) {f : LensSlot → LensSlot} (hf : ∀ slot, slot.sound → (f slot).sound)
    (h : l.slotsSound) : (l.mapSlot k f).slotsSound := by
  intro slot hmem
  obtain ⟨j, hj, rfl⟩ := List.getElem_of_mem hmem
  have hj' : j < l.slots.length := (mapSlot_length k f l) ▸ hj
  rw [show (l.mapSlot k f).slots[j] = (l.slots.modify k f)[j]'(by simpa using hj') from rfl, List.getElem_modify]
  split
  · exact hf _ (h _ (List.getElem_mem hj'))
  · exact h _ (List.getElem_mem hj')

theorem applyPendingOps_slotsSound {s : State} (h : s.lts.slotsSound) : (applyPendingOps s).lts.slotsSound := by
  unfold LensStore.slotsSound
  rw [applyPendingOps_slots]
  intro l hl
  obtain ⟨slot, hmem, rfl⟩ := List.mem_map.1 hl
  exact LensSlot.withHeld_sound (h slot hmem)

theorem applyPendingOps_lme (s : State) : ∃ hit, (applyPendingOps s).lme = s.lme.clearedFor s.tp.inProgress.isSome hit := by
  by_cases h : ∃ k, (s.lts.slot k).pending ≠ none
  · exact ⟨_, by rw [applyPendingOps_eq h]⟩
  · push Not at h
    rw [applyPendingOps_of_none ((forall_pending_iff _).2 h)]
    exact ⟨_, (clearedFor_none _ _).symm⟩

theorem applyPendingOps_inRange {s : State} (h : s.settingsInRange) : (applyPendingOps s).settingsInRange := by
  obtain ⟨hit, hlme⟩ := applyPendingOps_lme s
  refine h.keep (by simp) (by simp) (fun e => by simp) (by simp) (fun hl => ?_) applyPendingOps_slotsSound
  rw [hlme]
  exact clearedFor_inRange _ _ hl

theorem clearPrevious_inRange (e : Eye) {s : State} (h : s.settingsInRange) : (clearPrevious e s).settingsInRange := by
  refine h.keep id id (fun _ => rfl) id (fun hl => ?_) id
  rw [clearPrevious_lme]
  exact clearedFor_inRange _ _ hl

theorem boundTable_sound {s : State} (h : s.lts.slotsSound) {e : Eye} {x : LensTable} (hx : s.boundTable e = some x) :
    x.sound := by
  obtain ⟨k, -, hk⟩ := Option.bind_eq_some_iff.1 hx
  obtain ⟨c, hc, rfl⟩ := Option.map_eq_some_iff.1 hk
  by_cases hlen : k < s.lts.slots.length
  · rw [slot_eq_getElem hlen] at hc
    exact ((h _ (List.getElem_mem hlen)).1 c hc).1
  · rw [slot_outside (Nat.le_of_not_lt hlen)] at hc
    cases hc

/-- A plan begun now takes previous targets in range and tables of sound slots (R69). -/
theorem snapshot_inRange {s : State} (h : s.settingsInRange) (a : Agreement) (included departed : PerEye Bool) :
    PlanInProgress.inRange ⟨s.snapshot a, included, departed⟩ := by
  obtain ⟨-, -, -, -, hlme, hlts⟩ := (settingsInRange_iff s).1 h
  intro e
  rw [show (s.snapshot a).lens.get e = s.eyeLens e from PerEye_get_of _ _]
  exact ⟨hlme.2 e, fun x hx => boundTable_sound hlts hx⟩

theorem limit_ceiling_inRange {a : Agreement} (h : a.inRange) (n : Nat) : rateInRange (limit Config.minRate a.ceiling n) := by
  obtain ⟨⟨hlow, hhigh⟩, -⟩ := h
  simp only [rateInRange, limit, Config.minRate]
  omega

theorem beginPlan_inRange {c : Cadence} {a : Agreement} (ha : a.inRange) (now : Time) (h : c.inRange) :
    (c.beginPlan a now).inRange := by
  cases hsource : c.source with
  | ref =>
    rw [beginPlan_ref a now hsource]
    exact h
  | free =>
    rw [beginPlan_free a now hsource]
    obtain ⟨htarget, -, hramp, hrest⟩ := h
    refine ⟨htarget, limit_ceiling_inRange ha _, fun r hr => ?_, hrest⟩
    cases hc : c.ramp with
    | none =>
      rw [show c.steppedRamp = none by rw [Cadence.steppedRamp, hc]] at hr
      cases hr
    | some old =>
      obtain ⟨h0, h1, -, hmarks⟩ := hramp old hc
      rw [Cadence.steppedRamp_ramp hc] at hr
      split at hr
      · cases hr
      · next hlt =>
        obtain rfl := Option.some.inj hr
        exact ⟨h0, h1, Nat.lt_of_not_le hlt, hmarks⟩

theorem planStart_inRange {s : State} (h : s.settingsInRange) : (planStart s).settingsInRange := by
  obtain ⟨u, hu⟩ : ∃ u, u = (applyPendingOps s).mapLme fun l => { l with clearMark := .both false } := ⟨_, rfl⟩
  have hinRange : u.settingsInRange := by
    rw [hu]
    exact (applyPendingOps_inRange h).keep id id (fun _ => rfl) id id id
  unfold planStart
  dsimp only
  rw [← hu]
  split
  · exact hinRange
  · next a ha =>
    refine hinRange.keep (beginPlan_inRange (hinRange.agreement ha) _) id (fun _ => rfl) (fun htp => ⟨htp.1, fun p hp => ?_⟩) id id
    obtain rfl := Option.some.inj hp
    exact snapshot_inRange hinRange a _ _

/-- A target of a sound table, with a previous target in range, is in range (R117 to R119). -/
theorem axisTarget_le {t : AxisTable} (hwf : t.wf = true) (hpoints : ∀ p ∈ t.points, p.1 ≤ 65535 ∧ p.2 ≤ 65535)
    {motorised : Bool} {demand previous : Option Nat} (hprevious : ∀ v, previous = some v → v ≤ 65535) {x : AxisTarget}
    (h : axisTarget (some t) motorised demand previous = some x) : x.target ≤ 65535 := by
  match motorised, demand with
  | false, _ => cases h
  | true, none => cases h
  | true, some d =>
    obtain ⟨ideal, hideal, -, q, hq, hle⟩ := exists_idealCount_between hwf d
    rw [axisTarget_eq previous hideal] at h
    obtain rfl := Option.some.inj h
    have hmax := (hpoints q hq).2
    cases previous with
    | none => exact hle.trans hmax
    | some v =>
      have hv := hprevious v rfl
      have hslewed := slewed_some t.slew v ideal
      simp only [limitAbs] at hslewed
      dsimp only
      omega

theorem eyeTargets_le {lens : EyeLens} {demand : PerAxis (Option Nat)} (hprevious : targetsInRange lens.previous)
    (htable : ∀ x, lens.table = some x → x.sound) {a : Axis} {x : AxisTarget} (h : (eyeTargets lens demand).get a = some x) :
    x.target ≤ 65535 := by
  rw [show (eyeTargets lens demand).get a = axisTarget (lens.table.bind fun t => t.axes.get a) (lens.motorised.get a)
    (demand.get a) (lens.previous.get a) by cases a <;> rfl] at h
  cases hbind : lens.table.bind fun t => t.axes.get a with
  | none =>
    rw [hbind, axisTarget] at h
    · cases h
    · exact fun t d _ ht => by cases ht
  | some t =>
    rw [hbind] at h
    obtain ⟨table, hlens, haxis⟩ := Option.bind_eq_some_iff.1 hbind
    obtain ⟨hwf, hpoints⟩ := (htable table hlens).2 a t haxis
    exact axisTarget_le hwf hpoints (hprevious a) h

theorem plan_targets_inRange {p : PlanInProgress} (h : p.inRange) (e : Eye) : targetsInRange (p.plan.targets.get e) := by
  intro a v hv
  have hget : (p.plan.targets.get e).get a =
      ((p.snapshot.lensTargets p.included e).get a).map AxisTarget.target := by cases e <;> cases a <;> rfl
  rw [hget] at hv
  obtain ⟨x, hx, rfl⟩ := Option.map_eq_some_iff.1 hv
  rw [Snapshot.lensTargets] at hx
  split at hx
  · exact eyeTargets_le (h e).1 (h e).2 hx
  · cases a <;> cases hx

theorem newPrevious_inRange {old targets : PerAxis (Option Nat)} (h : targetsInRange old) (h' : targetsInRange targets) :
    targetsInRange (newPrevious old targets) := by
  intro a v hv
  have hget : (newPrevious old targets).get a = (targets.get a).orElse fun _ => old.get a := by cases a <;> rfl
  rw [hget] at hv
  cases ht : targets.get a with
  | none => exact h a v (by simpa [ht] using hv)
  | some w => exact h' a v (by simpa [ht] using hv)

theorem serveEye_inRange {plan : Plan} (e : Eye) (hplan : targetsInRange (plan.targets.get e)) {s : State}
    (h : s.settingsInRange) : (serveEye plan e s).settingsInRange := by
  have hwritten := writeDirective_inRange e (plan.run e) h
  unfold serveEye
  dsimp only
  (repeat' split)
  · exact hwritten
  · refine hwritten.keep id id (fun _ => rfl) id (fun hl => ⟨hl.1, fun e' => ?_⟩) id
    rw [State.mapLme_lme, PerEye_get_set]
    split
    · exact newPrevious_inRange (hl.2 e) hplan
    · exact hl.2 e'
  · exact h

theorem completePlan_inRange {s : State} (h : s.settingsInRange) : (completePlan s).settingsInRange := by
  unfold completePlan
  split
  · exact h
  · next p hp =>
    have hplan := ((settingsInRange_iff s).1 h).2.2.2.1.2 p hp
    have hserved := serveEye_inRange .right (plan_targets_inRange hplan .right)
      (serveEye_inRange .left (plan_targets_inRange hplan .left) h)
    exact hserved.keep id id (fun _ => rfl) (fun htp => ⟨htp.1, fun q hq => (by cases hq)⟩) id id

end Sys2Proof.Machine
end

section
/-! PROOFS. Every setting and bounded number stays in its range (O59): the operations, and the statement. -/

namespace Sys2Proof.Machine

/-! ## The cadence -/

theorem passMark_inRange (m : Time) (number : Option MarkNumber) {c : Cadence} (h : c.inRange) :
    (c.passMark m number).inRange := by
  unfold Cadence.passMark
  dsimp only
  (repeat' split) <;> exact h

theorem drain_inRange {c : Cadence} (h : c.inRange) : c.drain.inRange := by
  obtain ⟨-, hcurrent, -, hperiod, hempty, hgood, hlast, -⟩ := h
  exact ⟨hcurrent, hcurrent, fun r hr => (by cases hr), hperiod, hempty, hgood, hlast, Nat.zero_le 8⟩

theorem setRate_inRange {rate marks : Nat} (hrate : rateInRange rate) (hmarks : marks ≤ 65535) {c : Cadence} (h : c.inRange) :
    (c.setRate rate marks).inRange := by
  obtain ⟨-, hcurrent, -, hrest⟩ := h
  unfold Cadence.setRate
  split
  · refine ⟨hrate, ?_, fun r hr => (by cases hr), hrest⟩
    dsimp only
    split
    · exact hcurrent
    · exact hrate
  · refine ⟨hrate, hcurrent, fun r hr => ?_, hrest⟩
    obtain rfl := Option.some.inj hr
    exact ⟨hcurrent, hrate, by dsimp only; omega, hmarks⟩

theorem limitedRate_inRange {a : AgreementEngine} (h : a.inRange) (target : Nat) : rateInRange (limitedRate a.ceiling target) := by
  have hceiling : 1000 ≤ a.ceiling := by
    rw [AgreementEngine.ceiling]
    cases ha : a.agreement with
    | none => decide
    | some x => exact (h.2 x ha).1.1
  simp only [rateInRange, limitedRate, limit, Config.minRate, Config.maxRate]
  omega

theorem interval_inRange {r : SeekRecord} (i : Nat) :
    (3 ≤ (r.interval i).good → 400000 ≤ i ∧ i ≤ 100000000) ∧
      ((r.interval i).good ≠ 0 → (r.interval i).lastGood.isSome = true) := by
  by_cases hi : inPeriodRange i = true
  · refine ⟨fun _ => (inPeriodRange_iff i).1 hi, ?_⟩
    unfold SeekRecord.interval
    rw [hi]
    (repeat' split) <;> simp_all
  · rw [Bool.not_eq_true] at hi
    unfold SeekRecord.interval
    simp [hi]

theorem seekEdge_inRange (e : Time) {c : Cadence} (h : c.inRange) : (c.seekEdge e).inRange := by
  unfold Cadence.seekEdge
  split
  · exact h
  · next last _ =>
    obtain ⟨htarget, hcurrent, hramp, hperiod, hempty, -, -, hcount⟩ := h
    obtain ⟨hfound, hlast⟩ := interval_inRange (r := c.seek) (elapsed last e)
    dsimp only
    split
    · next hgood =>
      refine ⟨htarget, hcurrent, hramp, fun p hp => ?_, Nat.zero_le 2, Nat.zero_le 3, fun hne => absurd rfl hne, hcount⟩
      obtain rfl := Option.some.inj hp
      exact hfound hgood
    · next hgood => exact ⟨htarget, hcurrent, hramp, hperiod, hempty, by dsimp only; omega, hlast, hcount⟩

theorem updatedPeriod_inRange {c : Cadence} (a : AgreementEngine) (p : Nat) (e : Time) (hp : 400000 ≤ p ∧ p ≤ 100000000) :
    400000 ≤ updatedPeriod a c p e ∧ updatedPeriod a c p e ≤ 100000000 := by
  unfold updatedPeriod
  split
  · split
    · next h =>
      obtain ⟨-, hmin, hmax, -⟩ := (acceptsCandidate_iff _ _ _).1 h
      exact ⟨(le_max_left _ _).trans hmin, hmax⟩
    · exact hp
  · exact hp

theorem refEdge_inRange {s : State} (h : s.settingsInRange) : (refEdge s).settingsInRange := by
  refine h.keep (fun hcg => ?_) (by simp) (fun e => by simp) (by simp) (by simp) (by simp)
  unfold refEdge
  split
  · exact hcg
  · exact seekEdge_inRange _ hcg
  · next w p _ hp _ _ =>
    split
    · rw [attributeEdge_eq]
      dsimp only
      rw [edgeTaken_eq]
      obtain ⟨htarget, hcurrent, hramp, hperiod, -, hgood, hlast, hcount⟩ := hcg
      refine ⟨htarget, hcurrent, hramp, fun q hq => ?_, Nat.zero_le 2, hgood, hlast, hcount⟩
      obtain rfl := Option.some.inj hq
      exact updatedPeriod_inRange s.ae p s.timebase (hperiod p hp)
    · exact hcg
  · exact hcg

theorem closeWindow_inRange (w : RefWindow) (p : Nat) {c : Cadence} (h : c.inRange) : (c.closeWindow w p).inRange := by
  rw [closeWindow_eq]
  obtain ⟨htarget, hcurrent, hramp, hperiod, -, hrest⟩ := h
  exact ⟨htarget, hcurrent, hramp, hperiod, Nat.min_le_right _ _, hrest⟩

/-! ## The take -/

theorem stoppedTake_inRange {s : State} (h : s.settingsInRange) : (stoppedTake s).settingsInRange := by
  refine h.keep ?_ (by simp) (stoppedTake_caps s) ?_ (by simp) (by simp)
  · rw [(stoppedTake_frame s).2.1]
    exact drain_inRange
  · rw [(stoppedTake_frame s).2.2.2.1]
    exact fun htp => ⟨htp.1, fun p hp => (by cases hp)⟩

theorem testLoss_inRange (e : Eye) {s : State} (h : s.settingsInRange) : (testLoss e s).settingsInRange := by
  unfold testLoss
  split
  · exact applyPendingOps_inRange (stoppedTake_inRange h)
  · exact h

theorem holdCaps_inRange (e : Eye) {c : Option Caps} (hc : ∀ x, c = some x → x.inRange) {s : State} (h : s.settingsInRange) :
    (holdCaps e c s).settingsInRange := by
  obtain ⟨u, hu⟩ : ∃ u, u = s.mapEye e fun p => { p with caps := c } := ⟨_, rfl⟩
  have hinRange : u.settingsInRange := by
    rw [settingsInRange_iff] at *
    obtain ⟨hcg, hae, hcaps, hrest⟩ := h
    rw [hu]
    refine ⟨hcg, hae, fun e' x hx => ?_, hrest⟩
    rw [State.mapEye_eye] at hx
    split at hx
    · exact hc x hx
    · exact hcaps e' x hx
  rw [holdCaps, ← hu]
  refine hinRange.keep (by simp) (by simp) (fun e' => by simp) (by simp) (fun hl => ?_) ?_
  · rw [evalBinding_lme]
    exact clearedFor_inRange _ _ hl
  · rw [evalBinding_lts]
    exact id

theorem depart_inRange (e : Eye) {p : PlanInProgress} (h : p.inRange) : (p.depart e).inRange := by
  unfold PlanInProgress.inRange
  rw [(PlanInProgress.depart_fields e p).2.1]
  exact h

theorem departEye_inRange (e : Eye) {s : State} (h : s.settingsInRange) : (departEye e s).settingsInRange := by
  refine h.keep (by simp) (by simp) (fun e' => departEye_caps e e' s) ?_ (fun hl => ?_) (by simp)
  · rw [departEye_tp]
    rintro ⟨hshutter, hplan⟩
    refine ⟨hshutter, fun p hp => ?_⟩
    obtain ⟨q, hq, rfl⟩ := Option.map_eq_some_iff.1 hp
    exact depart_inRange e (hplan q hq)
  · have hlme : (departEye e s).lme = (clearPrevious e s).lme := (loseParts_frame _ _).2.2.2.2.1.trans rfl
    rw [hlme, clearPrevious_lme]
    exact clearedFor_inRange _ _ hl

theorem retire_inRange {s : State} (h : s.settingsInRange) : (retire s).settingsInRange := by
  refine h.keep (by simp) (by simp) (retire_caps s) ?_ (by simp) (by simp)
  rw [retire, retireFrom_tp]
  exact id

theorem ageWindow_inRange {s : State} (h : s.settingsInRange) : (ageWindow s).settingsInRange := by
  refine h.keep (by simp) (by simp) (ageWindow_caps s) ?_ (by simp) (by simp)
  rw [ageWindow_tp]
  exact id

theorem leaveTake_inRange (e : Eye) {s : State} (h : s.settingsInRange) : (leaveTake e s).settingsInRange :=
  testLoss_inRange e (raise_inRange _ h)

theorem rejoinTest_inRange (e : Eye) (c : Caps) {s : State} (h : s.settingsInRange) : (rejoinTest e c s).settingsInRange := by
  unfold rejoinTest
  split
  · exact waitEye_inRange e _ _ h
  · next a ha =>
    split
    · exact waitEye_inRange e _ _ h
    · refine proposeEye_inRange e _ (setAgreement_inRange h fun x hx => ?_)
      obtain rfl := Option.some.inj hx
      exact (show a.inRange from h.agreement ha)

theorem invalidOut_inRange (e : Eye) {s : State} (h : s.settingsInRange) : (invalidOut e s).settingsInRange := by
  refine holdCaps_inRange e (fun x hx => (by cases hx)) (clearExclusion_inRange (waitEye_inRange e _ _ ?_))
  split
  · exact departEye_inRange e h
  · exact h

theorem partnerWaits_inRange (e : Eye) {s : State} (h : s.settingsInRange) : (partnerWaits e s).settingsInRange := by
  unfold partnerWaits
  (repeat' split)
  · exact waitEye_inRange e _ _ h
  · exact writeDirective_inRange e _ h
  · exact h

theorem invalidCaps_inRange (e : Eye) {s : State} (h : s.settingsInRange) : (invalidCaps e s).settingsInRange := by
  have hout := invalidOut_inRange e h
  rw [invalidCaps_eq]
  (repeat' split)
  · exact partnerWaits_inRange _ (setAgreement_inRange hout fun x hx => (by cases hx))
  · exact leaveTake_inRange e hout
  · exact hout

theorem judgeOffer_inRange {raw : RawOffer} {o : Offer} (h : judgeOffer raw = some o) : o.inRange := by
  unfold judgeOffer at h
  split at h
  · cases h
  · next present _ =>
    split at h
    · next hfields =>
      obtain rfl := Option.some.inj h
      obtain ⟨hindex, hgeometry, hlow, hhigh, hreversed, hrest⟩ := hfields
      refine ⟨hindex, hgeometry, hlow, hhigh, fun t ht => ?_, hrest⟩
      dsimp only at ht
      split at ht
      · next hpresent =>
        obtain rfl := Option.some.inj ht
        exact hreversed hpresent
      · cases ht
    · cases h

theorem judgeOffers_inRange {raws : List RawOffer} {l : List Offer} (h : judgeOffers raws = some l) : ∀ o ∈ l, o.inRange := by
  induction raws generalizing l with
  | nil =>
    obtain rfl := Option.some.inj h
    simp
  | cons raw rest ih =>
    rw [judgeOffers] at h
    split at h
    · next a l' ha hl' =>
      obtain rfl := Option.some.inj h
      intro o ho
      rcases List.mem_cons.1 ho with rfl | ho
      · exact judgeOffer_inRange ha
      · exact ih hl' o ho
    · cases h

theorem judgeCaps_inRange {raw : RawCaps} {c : Caps} (h : judgeCaps raw = some c) : c.inRange := by
  unfold judgeCaps at h
  split at h
  · next offers _ hoffers =>
    split at h
    · next hvalid =>
      obtain rfl := Option.some.inj h
      exact ⟨hvalid.1, hvalid.2.1, hvalid.2.2.1, judgeOffers_inRange hoffers⟩
    · cases h
  · cases h

theorem takeCaps_inRange (e : Eye) (raw : RawCaps) {s : State} (h : s.settingsInRange) : (takeCaps e raw s).settingsInRange := by
  unfold takeCaps
  split
  · exact invalidCaps_inRange e h
  · next c hc =>
    have hheld : (holdCaps e (some c) (clearExclusion s)).settingsInRange :=
      holdCaps_inRange e (fun x hx => Option.some.inj hx ▸ judgeCaps_inRange hc) (clearExclusion_inRange h)
    split
    · have hchosen := runChoice_inRange (some e) hheld
      unfold validCapsSetup
      dsimp only
      split
      · exact hchosen.keep id id (fun _ => rfl) id id id
      · exact hchosen
    · rw [validCapsTake_eq]
      refine rejoinTest_inRange e c ?_
      unfold rejoinOut
      split
      · exact leaveTake_inRange e (setEyeState_inRange e _ (departEye_inRange e hheld))
      · exact hheld

theorem takeRefuse_inRange (e : Eye) (index : Byte) {s : State} (h : s.settingsInRange) :
    (takeRefuse e index s).settingsInRange := by
  unfold takeRefuse
  (repeat' split)
  · exact runChoice_inRange none (h.keep id id (fun _ => rfl) id id id)
  · exact h
  · exact waitEye_inRange e _ _ h
  · exact countLost_inRange e h

theorem takeAccept_inRange (e : Eye) (index : Byte) {s : State} (h : s.settingsInRange) :
    (takeAccept e index s).settingsInRange := by
  unfold takeAccept
  split
  · exact writeDirective_inRange e _ (setEyeState_inRange e _ h)
  · exact countLost_inRange e h

theorem agreementAfterLeave_inRange (e : Eye) {s : State} (h : s.settingsInRange) : (agreementAfterLeave e s).settingsInRange := by
  have hremoved := setAgreement_inRange (a := none) (clearExclusion_inRange h) fun x hx => (by cases hx)
  unfold agreementAfterLeave
  dsimp only
  (repeat' split)
  · exact waitEye_inRange _ _ _ hremoved
  · exact hremoved
  · exact clearExclusion_inRange h

theorem leaveAttached_inRange (e : Eye) {s : State} (h : s.settingsInRange) : (leaveAttached e s).settingsInRange := by
  have hreset := mapEye_inRange e EyePort.partialReset h rfl
  have hout : (detachedOut e s).settingsInRange := by
    refine holdCaps_inRange e (fun x hx => (by cases hx)) (setEyeState_inRange e _ ?_)
    split
    · exact departEye_inRange e hreset
    · exact clearPrevious_inRange e hreset
  have hafter := agreementAfterLeave_inRange e (raise_inRange .eyeChange hout)
  rw [leaveAttached_eq]
  split
  · exact testLoss_inRange e hafter
  · exact hafter

theorem startTake_inRange {s : State} (h : s.settingsInRange) : (startTake s).settingsInRange := by
  obtain ⟨u, hu⟩ : ∃ u, u = (s.mapCg fun c =>
      { c with take := c.take + 1, rig := .rolling, drainCount := 0, leadOwed := decide (c.source = .ref) }).mapTp
        fun t => { t with lastReadout := .both none } := ⟨_, rfl⟩
  have hinRange : u.settingsInRange := by
    rw [hu]
    refine h.keep (fun hcg => ?_) id (fun _ => rfl) id id id
    obtain ⟨htarget, hcurrent, hramp, hperiod, hempty, hgood, hlast, -⟩ := hcg
    exact ⟨htarget, hcurrent, hramp, hperiod, hempty, hgood, hlast, Nat.zero_le 8⟩
  have hcleared := clearPrevious_inRange .right (clearPrevious_inRange .left hinRange)
  unfold startTake
  dsimp only
  rw [← hu]
  split
  · exact planStart_inRange hcleared
  · exact hcleared

/-! ## The marks -/

theorem firePulse_inRange (e : Eye) (p : Pulse) {s : State} (h : s.settingsInRange) : (firePulse e p s).settingsInRange := by
  refine h.keep (by simp) (by simp) (fun e' => firePulse_caps e e' p s) ?_ (by simp) (by simp)
  rw [firePulse_tp]
  exact id

theorem joinEye_inRange (plan : Plan) (e : Eye) {s : State} (h : s.settingsInRange) : (joinEye plan e s).settingsInRange := by
  unfold joinEye
  split
  · exact (setEyeState_inRange e _ h).keep id id (fun _ => rfl) id id id
  · exact h

theorem layPulse_inRange (plan : Plan) (e : Eye) (number : MarkNumber) {s : State} (h : s.settingsInRange) :
    (layPulse plan e number s).settingsInRange := by
  unfold layPulse
  dsimp only
  (repeat' split)
  · exact firePulse_inRange e _ (h.keep id id (fun _ => rfl) id id id)
  · exact h.keep id id (fun _ => rfl) id id id
  · exact h

theorem rollingMarkEvent_inRange (m : Time) {s : State} (h : s.settingsInRange) : (rollingMarkEvent m s).settingsInRange := by
  have hdone := completePlan_inRange (s := waitUntil m s)
    (h.keep (by simp) (by simp) (fun e => by simp) (by simp) (by simp) (by simp))
  unfold rollingMarkEvent
  dsimp only
  split
  · exact hdone
  · next plan _ =>
    have hnumbered : ((completePlan (waitUntil m s)).mapCg
        (Cadence.numberMark m (completePlan (waitUntil m s)).timebase)).settingsInRange :=
      hdone.keep (fun hcg => passMark_inRange _ _ hcg) id (fun _ => rfl) id id id
    have hjoined := joinEye_inRange plan .right (joinEye_inRange plan .left (ageWindow_inRange hnumbered))
    have hopened : (rollMarkOpened m plan (completePlan (waitUntil m s))).settingsInRange :=
      retire_inRange (hjoined.keep id id (fun _ => rfl) id id id)
    have hlaid := layPulse_inRange plan .right (completePlan (waitUntil m s)).cg.markCounter
      (layPulse_inRange plan .left (completePlan (waitUntil m s)).cg.markCounter hopened)
    rw [rollMark_eq]
    exact planStart_inRange (hlaid.keep id id (fun _ => rfl) id id id)

theorem returnChoice_inRange {s : State} (h : s.settingsInRange) : (returnChoice s).settingsInRange := by
  unfold returnChoice
  dsimp only
  split
  · exact runChoice_inRange none h
  · exact h

theorem drainMark_inRange (m now : Time) {c : Cadence} (h : c.inRange) :
    ((c.drainMark m now).drainCount ≤ 8 → (c.drainMark m now).inRange) ∧ (c.drainMark m now).endDrain.inRange := by
  obtain ⟨htarget, hcurrent, hramp, hperiod, hempty, hgood, hlast, -⟩ := passMark_inRange m none h
  exact ⟨fun hcount => ⟨htarget, hcurrent, hramp, hperiod, hempty, hgood, hlast, hcount⟩,
    htarget, hcurrent, hramp, hperiod, hempty, hgood, hlast, Nat.zero_le 8⟩

theorem drainMarkEvent_inRange (m : Time) {s : State} (h : s.settingsInRange) : (drainMarkEvent m s).settingsInRange := by
  obtain ⟨u, hu⟩ : ∃ u, u = ageWindow ((waitUntil m s).mapCg (Cadence.drainMark m (waitUntil m s).timebase)) := ⟨_, rfl⟩
  have hcg : u.cg = s.cg.drainMark m (waitUntil m s).timebase := by rw [hu]; simp
  have hae : u.ae = s.ae := by rw [hu]; simp
  have hcaps : ∀ e, (u.eye e).caps = (s.eye e).caps := fun e => by
    rw [hu, ageWindow_caps, State.mapCg_eye, waitUntil_eye]
    simp
  have htp : s.tp.inRange → u.tp.inRange := by
    have hclock : (waitUntil m s).tp = s.tp := by simp
    rw [hu, ageWindow_tp, State.mapCg_tp, hclock]
    exact id
  have hlme : u.lme = s.lme := by rw [hu]; simp
  have hlts : u.lts = s.lts := by rw [hu]; simp
  have hdepth := ((settingsInRange_iff s).1 h).2.1.1.2.2.2.2.1
  unfold drainMarkEvent
  dsimp only
  rw [← hu]
  split
  · refine returnChoice_inRange (h.keep (fun hc => ?_) (fun hc => ?_) hcaps htp (fun hc => ?_) fun hc => ?_)
    · rw [State.mapCg_cg, hcg]
      exact (drainMark_inRange m _ hc).2
    · exact hae ▸ hc
    · exact hlme ▸ hc
    · exact hlts ▸ hc
  · next hshort =>
    refine h.keep (fun hc => ?_) (fun hc => hae ▸ hc) hcaps htp (fun hc => hlme ▸ hc) fun hc => hlts ▸ hc
    rw [hcg, hae] at hshort
    rw [hcg]
    exact (drainMark_inRange m _ hc).1 (by omega)

/-! ## The store and the resets -/

theorem changeSlot_inRange {k : Nat} {op : PendingOp} (hop : ∀ copy, op = .commit copy → copy.sound) {s : State}
    (h : s.settingsInRange) : (changeSlot k op s).settingsInRange := by
  unfold changeSlot
  split
  · refine h.keep id id (fun _ => rfl) id id fun hlts => mapSlot_slotsSound k (fun slot hslot => ⟨hslot.1, fun c hc => ?_⟩) hlts
    exact hop c (Option.some.inj hc)
  · rw [applyOp_eq]
    exact h.keep id id (fun _ => rfl) id (clearedFor_inRange _ _)
      (mapSlot_slotsSound k fun slot => LensSlot.apply_keepsSound hop)

theorem finishLoad_inRange {s : State} (h : s.settingsInRange) : (finishLoad s).settingsInRange := by
  rw [finishLoad_eq]
  refine h.keep id id (fun _ => rfl) id (clearedFor_inRange _ _) fun _ slot hmem => ?_
  obtain ⟨k, hk, rfl⟩ := List.getElem_of_mem hmem
  obtain ⟨hnone, hvalid⟩ := loadSlots_mem (List.getElem?_eq_getElem hk)
  refine ⟨fun c hc => ?_, fun c hc => ?_⟩
  · obtain ⟨⟨place, -, hjudged⟩, -⟩ := hvalid c hc
    exact judgePlace_sound hjudged
  · rw [hnone] at hc
    cases hc

theorem completeSave_inRange {s : State} (h : s.settingsInRange) : (completeSave s).settingsInRange := by
  unfold completeSave
  split
  · exact h
  · next r _ =>
    refine raise_inRange _ ?_
    refine h.keep (t := (waitUntil (after r.accepted Config.saveMinTicks) s).mapLts (LensStore.endSave r)) (by simp) (by simp)
      (fun e => by simp) (by simp) (by simp) ?_
    exact mapSlot_slotsSound r.slot fun _ hslot => hslot

theorem atReset_inRange {s : State} (hcg : s.cg = .atReset) (hae : s.ae = .atReset) (hcaps : ∀ e, (s.eye e).caps = none)
    (htp : s.tp = .atReset) (hlme : s.lme = .atReset) {nv : List NvPlace} (hlts : s.lts = .atReset nv) :
    s.settingsInRange := by
  have hframe : TakeFrame.inRange AgreementEngine.atReset.frame :=
    ⟨by decide, ⟨by decide, by decide⟩, by decide, by decide, by decide, by decide, fun a => by cases a <;> decide⟩
  have hslots : (LensStore.atReset nv).slotsSound := fun slot hslot => by
    obtain rfl := List.eq_of_mem_replicate hslot
    exact ⟨fun c hc => (by cases hc), fun c hc => (by cases hc)⟩
  rw [settingsInRange_iff, hcg, hae, htp, hlme, hlts]
  refine ⟨⟨⟨by decide, by decide⟩, ⟨by decide, by decide⟩, fun r hr => (by cases hr), fun p hp => (by cases hp), by decide,
    by decide, fun h => absurd rfl h, by decide⟩, ⟨hframe, fun a ha => (by cases ha)⟩, fun e c hc => ?_,
    ⟨⟨by decide, by decide⟩, fun p hp => (by cases hp)⟩, ⟨fun a v hv => (by cases a <;> cases hv), fun e => ?_⟩, hslots⟩
  · rw [hcaps] at hc
    cases hc
  · cases e <;> exact targetsInRange_none

theorem enforceReset_inRange (k : ResetKind) (s : State) : (enforceReset k s).settingsInRange :=
  atReset_inRange (nv := s.lts.nv) (by cases k <;> rfl) (by cases k <;> rfl) (fun e => by cases e <;> cases k <;> rfl)
    (by cases k <;> rfl) (by cases k <;> rfl) (by cases k <;> rfl)

theorem endReset_inRange (k : ResetKind) {s : State} (h : s.settingsInRange) : (endReset k s).settingsInRange := by
  obtain ⟨u, hu⟩ : ∃ u, u = (advance (s.resets.remaining k) s).mapResets (Resets.lift k) := ⟨_, rfl⟩
  have hlifted : u.settingsInRange := by
    rw [hu]
    exact h.keep (by simp) (by simp) (fun e => by simp) (by simp) (by simp) (by simp)
  unfold endReset
  rw [← hu]
  dsimp only
  (repeat' split)
  · exact hlifted
  · refine hlifted.keep id id (fun e => ?_) id id id
    rw [releasePart_eye]
    split <;> rfl
  · exact h

/-! ## The requests -/

theorem limitedShutter_inRange (t : TriggerPlanner) (m : ShutterMode) (v : Nat) :
    TriggerPlanner.shutterInRange { t with shutterMode := m, shutterValue := limitedShutter m v } := by
  cases m <;> simp only [TriggerPlanner.shutterInRange, limitedShutter, limit] <;> omega

theorem readTakeFrame_frameInRange {p : RawProfile} {f : TakeFrame} (h : readTakeFrame p = some f) : f.inRange := by
  unfold readTakeFrame at h
  split at h
  · split at h
    · next hfields =>
      obtain rfl := Option.some.inj h
      obtain ⟨hlow, hhigh, hanchor, hmin, hmax, hskew⟩ := hfields
      refine ⟨Nat.le_of_lt_succ p.geometry.isLt, ⟨hlow, hhigh⟩, hanchor, hmin, hmax, hskew, fun a => ?_⟩
      cases a
      · exact Nat.le_of_lt_succ p.tolFocus.isLt
      · exact Nat.le_of_lt_succ p.tolIris.isLt
      · exact Nat.le_of_lt_succ p.tolZoom.isLt
    · cases h
  · cases h

theorem newDemand_le {present : PerAxis Bool} {focus iris zoom : BitVec 16} {held : PerAxis (Option Nat)}
    (h : ∀ a v, held.get a = some v → v ≤ 65535) (a : Axis) (v : Nat)
    (hv : (newDemand present ⟨focus.toNat, iris.toNat, zoom.toNat⟩ held).get a = some v) : v ≤ 65535 := by
  have hvalue : PerAxis.get (⟨focus.toNat, iris.toNat, zoom.toNat⟩ : PerAxis Nat) a ≤ 65535 := by
    cases a
    · exact Nat.le_of_lt_succ focus.isLt
    · exact Nat.le_of_lt_succ iris.isLt
    · exact Nat.le_of_lt_succ zoom.isLt
  have hget : (newDemand present ⟨focus.toNat, iris.toNat, zoom.toNat⟩ held).get a =
      if present.get a then some (PerAxis.get (⟨focus.toNat, iris.toNat, zoom.toNat⟩ : PerAxis Nat) a) else held.get a := by
    cases a <;> rfl
  rw [hget] at hv
  split at hv
  · exact Option.some.inj hv ▸ hvalue
  · exact h a v hv

theorem toSource_inRange {c : Cadence} (h : c.inRange) : c.toRef.inRange ∧ c.toFree.inRange := by
  obtain ⟨htarget, hcurrent, hramp, -, hempty, -, -, hcount⟩ := h
  refine ⟨⟨?_, hcurrent, fun r hr => (by cases hr), fun p hp => (by cases hp), hempty, Nat.zero_le 3, fun h => absurd rfl h, hcount⟩,
    htarget, hcurrent, hramp, fun p hp => (by cases hp), Nat.zero_le 2, Nat.zero_le 3, fun h => absurd rfl h, hcount⟩
  change rateInRange ((c.ramp.map Ramp.r1).getD c.targetRate)
  cases hr : c.ramp with
  | none => exact htarget
  | some r => exact (hramp r hr).2.1

theorem decision_inRange {s t : State} {r : Request} (h : s.settingsInRange) (hd : Decision s r t) : t.settingsInRange := by
  cases hd with
  | unchanged => exact h
  | profile p f hrig hf =>
    have hframe : (s.mapAe fun a => { a with frame := f }).settingsInRange :=
      h.keep id (fun hae => ⟨readTakeFrame_frameInRange hf, hae.2⟩) (fun _ => rfl) id id id
    exact runChoice_inRange none (clearExclusion_inRange hframe)
  | toRef code hrig => exact h.keep (fun hc => (toSource_inRange hc).1) id (fun _ => rfl) id id id
  | toFree code hrig => exact h.keep (fun hc => (toSource_inRange hc).2) id (fun _ => rfl) id id id
  | rate target marks hsource =>
    have hae := ((settingsInRange_iff s).1 h).2.1
    exact h.keep (setRate_inRange (limitedRate_inRange hae _) (Nat.le_of_lt_succ marks.isLt)) id (fun _ => rfl) id id id
  | shutter mode value m =>
    exact h.keep id id (fun _ => rfl) (fun htp => ⟨limitedShutter_inRange s.tp m _, htp.2⟩) id id
  | demand axes focus iris zoom => exact h.keep id id (fun _ => rfl) id (fun hl => ⟨newDemand_le hl.1, hl.2⟩) id
  | roll hroll => exact startTake_inRange h
  | cut hrig => exact applyPendingOps_inRange (stoppedTake_inRange h)
  | enable eye action e =>
    unfold enablePort
    split
    · exact h
    · refine mapEye_inRange e _ h ?_
      dsimp only
      split <;> rfl
  | disable eye action e =>
    have hoff := mapEye_inRange e (fun p => { p with enabled := false }) h rfl
    unfold disablePort
    dsimp only
    (repeat' split)
    · exact h
    · exact leaveAttached_inRange e hoff
    · exact mapEye_inRange e _ hoff rfl
  | stageReset => exact h.keep id id (fun _ => rfl) id id id
  | stageWrite offset data hfits => exact h.keep id id (fun _ => rfl) id id id
  | commit slot copy hslot hcopy hclash =>
    exact changeSlot_inRange (fun c hc => (commit_fitsSlot hcopy hclash c hc).1) h
  | discard slot hslot => exact changeSlot_inRange (fun copy hcopy => (by cases hcopy)) h
  | save slot hslot hstore => exact h.keep id id (fun _ => rfl) id id id
  | clear mask => exact h.keep id id (fun _ => rfl) id id id

theorem Move.settingsInRange {c : Instr} {s t : State} (hs : s.settingsInRange) (h : Move s c t) : t.settingsInRange := by
  have taken : ∀ e, (emptySlot e s).settingsInRange := fun e => mapEye_inRange e _ hs rfl
  have waited : ∀ n, (advance n s).settingsInRange := fun n =>
    hs.keep (by simp) (by simp) (fun e => by simp) (by simp) (by simp) (by simp)
  have clocked : ∀ m, (waitUntil m s).settingsInRange := fun m => waited _
  cases h with
  | nothing => exact hs
  | rcpStart early =>
    exact hs.keep (by simp) (by simp) (fun e => by simp [State.eye]) (by simp) (by simp) (by simp)
  | judged _ n v =>
    exact judged_keeps_of_decisions (fun _ _ h => h.keep id id (fun _ => rfl) id id id) (fun _ _ _ => decision_inRange)
      (fun k s _ => enforceReset_inRange k s) n v hs
  | eyeStart e early => exact hs.keep (by simp) (by simp) (fun e' => eyeStart_caps e e' early s) (by simp) (by simp) (by simp)
  | eyeEnd _ e n r => exact hs.keep (by simp) (by simp) (fun e' => eyeEnd_caps e e' n r s) (by simp) (by simp) (by simp)
  | capsTaken e raw => exact takeCaps_inRange e raw (taken e)
  | acceptTaken e index => exact takeAccept_inRange e index (taken e)
  | refuseTaken e index => exact takeRefuse_inRange e index (taken e)
  | frameTaken e f =>
    unfold matchFrame
    split
    · exact countLost_inRange e (taken e)
    · refine retire_inRange ((taken e).keep (by simp) (by simp) (fun e' => by simp) (by simp) (by simp) (by simp))
  | presLevel _ e b => exact mapEye_inRange e _ hs rfl
  | presRise e =>
    refine mapEye_inRange e _ hs ?_
    unfold EyePort.rise
    dsimp only
    (repeat' split) <;> rfl
  | presFall e =>
    refine mapEye_inRange e _ hs ?_
    unfold EyePort.fall
    dsimp only
    (repeat' split) <;> rfl
  | settled e n h => exact raise_inRange _ (mapEye_inRange e _ (waitEye_inRange e _ _ (waited n)) rfl)
  | detached e n => exact leaveAttached_inRange e (waited n)
  | rollingMark m h => exact rollingMarkEvent_inRange m hs
  | planComplete => exact completePlan_inRange hs
  | drainMark m h => exact drainMarkEvent_inRange m hs
  | leadMark m h => exact planStart_inRange ((clocked m).keep (passMark_inRange _ _) id (fun _ => rfl) id id id)
  | setupMark m => exact (clocked m).keep (passMark_inRange _ _) id (fun _ => rfl) id id id
  | refinEdge => exact refEdge_inRange hs
  | windowClose w p =>
    rw [closeRefWindow_eq w p s]
    exact (clocked _).keep (closeWindow_inRange w p) id (fun _ => rfl) id id id
  | pulse e p h hin => exact firePulse_inRange e p (clocked p.time)
  | pulseEnd e t => exact mapEye_inRange e _ (clocked _) rfl
  | saveComplete => exact completeSave_inRange hs
  | loadComplete =>
    unfold completeLoad
    split
    · exact finishLoad_inRange hs
    · exact hs
  | pairStart early => exact hs.keep (by simp) (by simp) (fun e => by simp) (by simp) (by simp) (by simp)
  | pairEnd n => exact hs.keep (by simp) (by simp) (fun e => by simp) (by simp) (by simp) (by simp)
  | reset _ k => exact enforceReset_inRange k s
  | release k => exact endReset_inRange k hs

/-- Settles O59: every move keeps every setting in its range, and a tick touches none. -/
theorem settingsStayInRange : Obligations.SettingsStayInRange := fun _ _ hs h =>
  step_keeps (fun _ _ h => h.keep id id (fun _ => rfl) id id id)
    (fun _ h => h.keep (by simp) (by simp) (fun e => by simp) (by simp) (by simp) (by simp))
    (fun _ _ _ => Move.settingsInRange) hs h

end Sys2Proof.Machine
end

section
/-! PROOFS. The pair window and the trigger lists (O56): the window by its ages and its marks, and the slots that the lists
name. -/

namespace Sys2Proof.Machine

/-! ## The window's ages and marks -/

/-- The ages of a sound window (R132, R135, R142). -/
def agesSound (depth : Nat) (c : Cadence) (ages : List Nat) : Prop :=
  2 ≤ depth ∧ depth ≤ 8 ∧ ages.Pairwise (fun a b => b < a) ∧ (∀ a ∈ ages, a < depth) ∧ (c.rig = .setup → ages = []) ∧
    (c.rig = .draining → c.drainCount < depth ∧ ∀ a ∈ ages, c.drainCount ≤ a)

theorem windowSound_iff (s : State) : s.windowSound ↔ agesSound s.ae.frame.depth s.cg (s.pe.window.map PairSlot.age) := by
  simp only [State.windowSound, agesSound, List.forall_mem_map, List.map_eq_nil_iff]

/-- The marks of a window end at the mark before the counter's, one after the other (R131). -/
def marksUpTo (counter : MarkNumber) (marks : List MarkNumber) : Prop :=
  ∀ i (h : i < marks.length), marks[i] = counter - BitVec.ofNat 48 (marks.length - i)

theorem marksConsecutive_iff (s : State) : s.marksConsecutive ↔ marksUpTo s.cg.markCounter (s.pe.window.map PairSlot.mark) := by
  unfold State.marksConsecutive marksUpTo
  rw [List.ext_getElem_iff]
  simp

theorem agesSound.length_le {depth : Nat} {ages : List Nat} (hdecreasing : ages.Pairwise fun a b => b < a)
    (hbound : ∀ a ∈ ages, a < depth) : ages.length ≤ depth := by
  induction ages generalizing depth with
  | nil => exact Nat.zero_le _
  | cons a rest ih =>
    rw [List.pairwise_cons] at hdecreasing
    have hrest := ih hdecreasing.2 hdecreasing.1
    have ha := hbound a (List.mem_cons_self ..)
    rw [List.length_cons]
    omega

theorem marksUpTo.suffix {counter : MarkNumber} {l l' : List MarkNumber} (h : marksUpTo counter (l ++ l')) :
    marksUpTo counter l' := by
  intro i hi
  have hget := h (l.length + i) (by rw [List.length_append]; omega)
  rw [List.getElem_append_right (by omega)] at hget
  simp only [Nat.add_sub_cancel_left, List.length_append, Nat.add_sub_add_left] at hget
  exact hget

theorem marksUpTo.concat {counter : MarkNumber} {l : List MarkNumber} (h : marksUpTo counter l) :
    marksUpTo (counter + 1) (l ++ [counter]) := by
  intro i hi
  simp only [List.length_append, List.length_cons, List.length_nil, Nat.zero_add] at hi ⊢
  have hstep : ∀ n, counter + 1 - BitVec.ofNat 48 (n + 1) = counter - BitVec.ofNat 48 n := fun n => by
    rw [BitVec.ofNat_add]
    generalize BitVec.ofNat 48 n = x
    bv_omega
  by_cases hlast : i < l.length
  · rw [List.getElem_append_left hlast, h i hlast, show l.length + 1 - i = l.length - i + 1 by omega, hstep]
  · obtain rfl : i = l.length := by omega
    rw [List.getElem_concat_length, show l.length + 1 - l.length = 0 + 1 by omega, hstep]
    · exact (BitVec.sub_zero counter).symm
    · rfl

/-- Marks of a window of at most 8 slots differ from each other and from the counter. -/
theorem marksUpTo.apart {counter : MarkNumber} {l : List MarkNumber} (h : marksUpTo counter l) (hlen : l.length ≤ 8) :
    l.Nodup ∧ counter ∉ l := by
  refine ⟨?_, fun hmem => ?_⟩
  · rw [List.nodup_iff_pairwise_ne, List.pairwise_iff_getElem]
    intro i j hi hj hij
    have hne : l.length - i ≠ l.length - j := by omega
    have hi8 : l.length - i ≤ 8 := by omega
    have hj8 : l.length - j ≤ 8 := by omega
    rw [h i hi, h j hj]
    generalize l.length - i = m at *
    generalize l.length - j = n at *
    bv_omega
  · obtain ⟨i, hi, hget⟩ := List.getElem_of_mem hmem
    have hpos : 0 < l.length - i := by omega
    have hi8 : l.length - i ≤ 8 := by omega
    rw [h i hi] at hget
    generalize l.length - i = m at *
    bv_omega

/-! ## The slots that the lists name -/

/-- A slot of the window with a mark and with an eye's part in a state. -/
def windowPart (window : List PairSlot) (e : Eye) (m : MarkNumber) (st : PartState) : Prop :=
  ∃ slot ∈ window, slot.mark = m ∧ (slot.parts.get e).state = st

/-- An eye's lists name open slots of the window, each mark once (R133, R134). -/
def listsNamed (window : List PairSlot) (e : Eye) (pulses : List Pulse) (triggers : List TriggerEntry) : Prop :=
  (pulses.map Pulse.mark).Nodup ∧ (triggers.map TriggerEntry.mark).Nodup ∧
    (∀ p ∈ pulses, windowPart window e p.mark .triggerPending) ∧ ∀ t ∈ triggers, windowPart window e t.mark .awaited

theorem listsNamed_iff (s : State) (e : Eye) :
    s.listsNameOpenSlots e ↔ listsNamed s.pe.window e (s.tp.pulses.get e) (s.pe.triggers.get e) := Iff.rfl

/-- Fewer entries, on a window that keeps the open parts they name. -/
theorem listsNamed.mono {window window' : List PairSlot} {e : Eye} {pulses pulses' : List Pulse}
    {triggers triggers' : List TriggerEntry} (h : listsNamed window e pulses triggers) (hpulses : pulses'.Sublist pulses)
    (htriggers : triggers'.Sublist triggers)
    (hpending : ∀ p ∈ pulses', windowPart window e p.mark .triggerPending → windowPart window' e p.mark .triggerPending)
    (hawaited : ∀ t ∈ triggers', windowPart window e t.mark .awaited → windowPart window' e t.mark .awaited) :
    listsNamed window' e pulses' triggers' := by
  obtain ⟨hp, ht, hname, hname'⟩ := h
  exact ⟨hp.sublist (hpulses.map _), ht.sublist (htriggers.map _), fun p hmem => hpending p hmem (hname p (hpulses.subset hmem)),
    fun t hmem => hawaited t hmem (hname' t (htriggers.subset hmem))⟩

theorem PairSlot.complete_final {slot : PairSlot} (h : slot.complete = true) (e : Eye) :
    (slot.parts.get e).state.final = true := by
  obtain ⟨hl, hr⟩ := (Bool.and_eq_true _ _).mp h
  cases e
  · exact hl
  · exact hr

theorem mem_dropWhile_complete {l : List PairSlot} {slot : PairSlot} (hmem : slot ∈ l) (hopen : slot.complete = false) :
    slot ∈ l.dropWhile PairSlot.complete := by
  rw [← List.takeWhile_append_dropWhile (p := PairSlot.complete) (l := l), List.mem_append] at hmem
  rcases hmem with h | h
  · rw [List.mem_takeWhile_imp h] at hopen
    cases hopen
  · exact h

/-- Retirement leaves the open parts. -/
theorem windowPart.dropWhile {l : List PairSlot} {e : Eye} {m : MarkNumber} {st : PartState} (hst : st.final = false)
    (h : windowPart l e m st) : windowPart (l.dropWhile PairSlot.complete) e m st := by
  obtain ⟨slot, hmem, hmark, hstate⟩ := h
  refine ⟨slot, mem_dropWhile_complete hmem ?_, hmark, hstate⟩
  by_contra hcomplete
  have hfinal := slot.complete_final (Bool.eq_true_of_not_eq_false hcomplete) e
  rw [hstate, hst] at hfinal
  cases hfinal

theorem windowPart.append {l l' : List PairSlot} {e : Eye} {m : MarkNumber} {st : PartState} (h : windowPart l e m st) :
    windowPart (l ++ l') e m st := by
  obtain ⟨slot, hmem, hrest⟩ := h
  exact ⟨slot, List.mem_append_left _ hmem, hrest⟩

/-- A change of slots that keeps a part's mark and state. -/
theorem windowPart.map {l : List PairSlot} {e : Eye} {m : MarkNumber} {st st' : PartState} {f : PairSlot → PairSlot}
    (hf : ∀ slot ∈ l, slot.mark = m → (slot.parts.get e).state = st →
      (f slot).mark = m ∧ ((f slot).parts.get e).state = st') (h : windowPart l e m st) : windowPart (l.map f) e m st' := by
  obtain ⟨slot, hmem, hmark, hstate⟩ := h
  exact ⟨f slot, List.mem_map_of_mem hmem, hf slot hmem hmark hstate⟩

/-- A mark's part has one state where marks differ. -/
theorem windowPart.unique {l : List PairSlot} {e : Eye} {m : MarkNumber} {st st' : PartState}
    (hdistinct : (l.map PairSlot.mark).Nodup) (h : windowPart l e m st) (h' : windowPart l e m st') : st = st' := by
  obtain ⟨slot, hmem, hmark, hstate⟩ := h
  obtain ⟨slot', hmem', hmark', hstate'⟩ := h'
  obtain rfl := List.inj_on_of_nodup_map hdistinct hmem hmem' (hmark.trans hmark'.symm)
  exact hstate.symm.trans hstate'

theorem windowPart.mark_mem {l : List PairSlot} {e : Eye} {m : MarkNumber} {st : PartState} (h : windowPart l e m st) :
    m ∈ l.map PairSlot.mark := by
  obtain ⟨slot, hmem, rfl, -⟩ := h
  exact List.mem_map_of_mem hmem

/-! ## What keeps the lists sound -/

theorem State.listsSound.marks_apart {s : State} (h : s.listsSound) :
    (s.pe.window.map PairSlot.mark).Nodup ∧ s.cg.markCounter ∉ s.pe.window.map PairSlot.mark := by
  obtain ⟨hwindow, hmarks, -⟩ := h
  obtain ⟨-, hdepth, hdecreasing, hbound, -⟩ := (windowSound_iff s).1 hwindow
  refine marksUpTo.apart ((marksConsecutive_iff s).1 hmarks) ?_
  have hlen := agesSound.length_le hdecreasing hbound
  rw [List.length_map] at hlen ⊢
  omega

/-- The rig's state and its count of drain marks stay, or the rig rolls. -/
def Cadence.sameDrain (c d : Cadence) : Prop := d.rig = .rolling ∨ d.rig = c.rig ∧ d.drainCount = c.drainCount

theorem agesSound.sameDrain {depth : Nat} {c d : Cadence} {ages : List Nat} (h : agesSound depth c ages)
    (hdrain : c.sameDrain d) : agesSound depth d ages := by
  obtain ⟨hmin, hmax, hdecreasing, hbound, hsetup, hdraining⟩ := h
  refine ⟨hmin, hmax, hdecreasing, hbound, fun hrig => ?_, fun hrig => ?_⟩
  · rcases hdrain with hroll | ⟨hsame, -⟩
    · rw [hroll] at hrig
      cases hrig
    · exact hsetup (hsame ▸ hrig)
  · rcases hdrain with hroll | ⟨hsame, hcount⟩
    · rw [hroll] at hrig
      cases hrig
    · rw [hcount]
      exact hdraining (hsame ▸ hrig)

/-- The same depth and marks, a suffix of the window's ages and marks, and lists that name open slots. -/
theorem State.listsSound.shrink {s t : State} (h : s.listsSound) (hdepth : t.ae.frame.depth = s.ae.frame.depth)
    (hdrain : s.cg.sameDrain t.cg) (hcounter : t.cg.markCounter = s.cg.markCounter)
    (hages : ∃ l, s.pe.window.map PairSlot.age = l ++ t.pe.window.map PairSlot.age)
    (hmarks : ∃ l, s.pe.window.map PairSlot.mark = l ++ t.pe.window.map PairSlot.mark)
    (hlists : ∀ e, t.listsNameOpenSlots e) : t.listsSound := by
  obtain ⟨hwindow, hconsecutive, -⟩ := h
  rw [windowSound_iff] at hwindow
  rw [marksConsecutive_iff] at hconsecutive
  obtain ⟨l, hages⟩ := hages
  obtain ⟨l', hmarks⟩ := hmarks
  refine ⟨(windowSound_iff t).2 ?_, (marksConsecutive_iff t).2 ?_, hlists⟩
  · rw [hages] at hwindow
    rw [hdepth]
    refine agesSound.sameDrain ?_ hdrain
    obtain ⟨hmin, hmax, hdecreasing, hbound, hsetup, hdraining⟩ := hwindow
    exact ⟨hmin, hmax, (List.pairwise_append.1 hdecreasing).2.1, fun a ha => hbound a (List.mem_append_right _ ha),
      fun hrig => (List.append_eq_nil_iff.1 (hsetup hrig)).2, fun hrig => ⟨(hdraining hrig).1, fun a ha =>
        (hdraining hrig).2 a (List.mem_append_right _ ha)⟩⟩
  · rw [hmarks] at hconsecutive
    rw [hcounter]
    exact hconsecutive.suffix

/-- An operation that leaves the window, and of the lists takes pulses alone. -/
def State.keepsLists (s t : State) : Prop :=
  t.ae.frame = s.ae.frame ∧ t.pe = s.pe ∧ s.cg.sameDrain t.cg ∧ t.cg.markCounter = s.cg.markCounter ∧
    ∀ e, (t.tp.pulses.get e).Sublist (s.tp.pulses.get e)

theorem State.keepsLists.sound {s t : State} (hkeep : s.keepsLists t) (h : s.listsSound) : t.listsSound := by
  obtain ⟨hframe, hpe, hdrain, hcounter, hpulses⟩ := hkeep
  refine h.shrink (by rw [hframe]) hdrain hcounter ⟨[], by rw [hpe]; rfl⟩ ⟨[], by rw [hpe]; rfl⟩ fun e => ?_
  rw [listsNamed_iff, hpe]
  exact ((listsNamed_iff s e).1 (h.2.2 e)).mono (hpulses e) (List.Sublist.refl _) (fun _ _ h => h) fun _ _ h => h

theorem State.keepsLists_refl (s : State) : s.keepsLists s :=
  ⟨rfl, rfl, .inr ⟨rfl, rfl⟩, rfl, fun _ => List.Sublist.refl _⟩

theorem State.keepsLists.trans {s t u : State} (h : s.keepsLists t) (h' : t.keepsLists u) : s.keepsLists u := by
  obtain ⟨hframe, hpe, hdrain, hcounter, hpulses⟩ := h
  obtain ⟨hframe', hpe', hdrain', hcounter', hpulses'⟩ := h'
  refine ⟨hframe'.trans hframe, hpe'.trans hpe, ?_, hcounter'.trans hcounter, fun e => (hpulses' e).trans (hpulses e)⟩
  rcases hdrain' with hroll | ⟨hsame, hcount⟩
  · exact .inl hroll
  · rcases hdrain with hroll | ⟨hsame', hcount'⟩
    · exact .inl (hsame.trans hroll)
    · exact .inr ⟨hsame.trans hsame', hcount.trans hcount'⟩

theorem keepsLists_of_eq {s t : State} (hframe : t.ae.frame = s.ae.frame) (hpe : t.pe = s.pe) (hcg : t.cg = s.cg)
    (hpulses : t.tp.pulses = s.tp.pulses) : s.keepsLists t :=
  ⟨hframe, hpe, .inr ⟨by rw [hcg], by rw [hcg]⟩, by rw [hcg], fun e => by rw [hpulses]⟩

/-! ## Retirement and ageing -/

theorem map_dropWhile {α : Type} (f : PairSlot → α) (p : PairSlot → Bool) (l : List PairSlot) :
    ∃ l', l.map f = l' ++ (l.dropWhile p).map f :=
  ⟨(l.takeWhile p).map f, by rw [← List.map_append, List.takeWhile_append_dropWhile]⟩

theorem retire_lists {s : State} {e : Eye} (h : listsNamed s.pe.window e (s.tp.pulses.get e) (s.pe.triggers.get e)) :
    (retire s).listsNameOpenSlots e := by
  rw [listsNamed_iff, retire, retireFrom_window, retireFrom_pulses, retireFrom_triggers]
  exact h.mono List.filter_sublist List.filter_sublist (fun _ _ h => h.dropWhile rfl) fun _ _ h => h.dropWhile rfl

theorem retire_listsSound {s : State} (h : s.listsSound) : (retire s).listsSound := by
  refine h.shrink (by simp) (.inr (by simp)) (by simp) ?_ ?_ fun e => retire_lists (h.2.2 e) <;>
    rw [retire, retireFrom_window] <;> exact map_dropWhile _ _ _

theorem timeOut_age (depth : Nat) (p : PairSlot) : (p.timeOut depth).age = p.age ∧ (p.timeOut depth).mark = p.mark := by
  unfold PairSlot.timeOut
  split <;> exact ⟨rfl, rfl⟩

theorem EyePart.timeOut_final (p : EyePart) : p.timeOut.state.final = true := by
  unfold EyePart.timeOut
  split
  · assumption
  · rfl

theorem timeOut_complete {depth : Nat} {p : PairSlot} (h : depth ≤ p.age) : (p.timeOut depth).complete = true := by
  unfold PairSlot.timeOut
  split
  · exact (Bool.and_eq_true _ _).mpr ⟨EyePart.timeOut_final _, EyePart.timeOut_final _⟩
  · next hout =>
    simp only [PairSlot.timedOut, h, decide_true, Bool.true_and, Bool.not_eq_true', Bool.not_eq_false] at hout
    exact hout

theorem agedWindow_marks (depth : Nat) (l : List PairSlot) :
    (agedWindow depth l).map PairSlot.mark = l.map PairSlot.mark ∧
      (agedWindow depth l).map PairSlot.age = l.map fun p => p.age + 1 := by
  unfold agedWindow
  simp only [List.map_map]
  exact ⟨List.map_congr_left fun p _ => (timeOut_age depth _).2, List.map_congr_left fun p _ => (timeOut_age depth _).1⟩

/-- At a mark the oldest slot alone can reach the depth, and then it retires (R142). -/
theorem ageWindow_age_lt {s : State} (hdecreasing : (s.pe.window.map PairSlot.age).Pairwise fun a b => b < a)
    (hbound : ∀ p ∈ s.pe.window, p.age < s.ae.frame.depth) : ∀ p ∈ (ageWindow s).pe.window, p.age < s.ae.frame.depth := by
  rw [ageWindow_window]
  generalize s.ae.frame.depth = depth at *
  cases hl : s.pe.window with
  | nil => exact fun p hp => by cases hp
  | cons slot rest =>
    rw [hl] at hdecreasing hbound
    rw [List.map_cons, List.pairwise_cons] at hdecreasing
    have hhead := hbound slot (List.mem_cons_self ..)
    have hrest : ∀ p ∈ agedWindow depth rest, p.age < depth := fun p hp => by
      obtain ⟨q, hq, rfl⟩ := List.mem_map.1 hp
      have hlt := hdecreasing.1 _ (List.mem_map_of_mem hq)
      rw [(timeOut_age depth _).1]
      dsimp only
      omega
    change ∀ p ∈ (PairSlot.timeOut depth { slot with age := slot.age + 1 } :: agedWindow depth rest).dropWhile
      PairSlot.complete, p.age < depth
    by_cases hold : depth ≤ slot.age + 1
    · rw [List.dropWhile_cons, if_pos (timeOut_complete hold)]
      exact fun p hp => hrest p ((List.dropWhile_suffix _).subset hp)
    · intro p hp
      rcases List.mem_cons.1 ((List.dropWhile_suffix _).subset hp) with rfl | hp
      · rw [(timeOut_age depth _).1]
        exact Nat.lt_of_not_le hold
      · exact hrest p hp

/-- Ageing drops the entries of the slots that time out and leaves the other open slots open (R88, R142). -/
theorem ageWindow_lists {s : State} {e : Eye} (h : s.listsNameOpenSlots e) : (ageWindow s).listsNameOpenSlots e := by
  rw [listsNamed_iff] at *
  rw [ageWindow_window, ageWindow_pulses, ageWindow_triggers]
  have hopen : ∀ m st, st.final = false → freeOf (timingOut s.ae.frame.depth s.pe.window) m = true →
      windowPart s.pe.window e m st →
      windowPart ((agedWindow s.ae.frame.depth s.pe.window).dropWhile PairSlot.complete) e m st := by
    intro m st hst hfree hpart
    refine windowPart.dropWhile hst (hpart.map fun slot hmem hmark hstate => ?_)
    have hstays : PairSlot.timedOut s.ae.frame.depth { slot with age := slot.age + 1 } = false := by
      by_contra hout
      exact (freeOf_iff _ _).1 hfree { slot with age := slot.age + 1 }
        (List.mem_filter.2 ⟨List.mem_map_of_mem hmem, Bool.eq_true_of_not_eq_false hout⟩) hmark
    rw [PairSlot.timeOut, if_neg (by rw [hstays]; decide)]
    exact ⟨hmark, hstate⟩
  refine h.mono List.filter_sublist List.filter_sublist (fun p hp => ?_) fun t ht => ?_
  · exact hopen _ _ rfl ((Bool.and_eq_true _ _).mp (List.mem_filter.1 hp).2).1
  · exact hopen _ _ rfl ((Bool.and_eq_true _ _).mp (List.mem_filter.1 ht).2).1

theorem ageWindow_marks (s : State) :
    (∃ l, s.pe.window.map PairSlot.mark = l ++ (ageWindow s).pe.window.map PairSlot.mark) ∧
      ∃ l, s.pe.window.map (fun p => p.age + 1) = l ++ (ageWindow s).pe.window.map PairSlot.age := by
  rw [ageWindow_window, ← (agedWindow_marks s.ae.frame.depth s.pe.window).1,
    ← (agedWindow_marks s.ae.frame.depth s.pe.window).2]
  exact ⟨map_dropWhile _ _ _, map_dropWhile _ _ _⟩

end Sys2Proof.Machine
end

section
/-! PROOFS. The pair window and the trigger lists stay sound (O56): the operations, and the statement. -/

namespace Sys2Proof.Machine

/-! ## Operations that leave the window -/

theorem setEyeState_keepsLists (e : Eye) (st : EyeState) (s : State) : s.keepsLists (setEyeState e st s) := by
  refine ⟨by simp, by simp, .inr (by simp), by simp, fun e' => ?_⟩
  rw [setEyeState_tp]
  split
  · exact List.Sublist.refl _
  · refine (PerEye_get_set _ _ _ _).symm ▸ ?_
    split
    · exact List.nil_sublist _
    · exact List.Sublist.refl _

theorem setAgreement_keepsLists (a : Option Agreement) (s : State) : s.keepsLists (setAgreement a s) :=
  keepsLists_of_eq rfl rfl rfl rfl

theorem clearExclusion_keepsLists (s : State) : s.keepsLists (clearExclusion s) := keepsLists_of_eq rfl rfl rfl rfl

theorem raise_keepsLists (n : Notice) (s : State) : s.keepsLists (raise n s) := keepsLists_of_eq rfl rfl rfl rfl

theorem countLost_keepsLists (e : Eye) (s : State) : s.keepsLists (countLost e s) := keepsLists_of_eq rfl rfl rfl rfl

theorem mapEye_keepsLists (e : Eye) (g : EyePort → EyePort) (s : State) : s.keepsLists (s.mapEye e g) :=
  keepsLists_of_eq rfl rfl rfl rfl

theorem writeDirective_keepsLists (e : Eye) (d : Directive) (s : State) : s.keepsLists (writeDirective e d s) :=
  keepsLists_of_eq rfl rfl rfl rfl

theorem clearPrevious_keepsLists (e : Eye) (s : State) : s.keepsLists (clearPrevious e s) := keepsLists_of_eq rfl rfl rfl rfl

theorem waitEye_keepsLists (e : Eye) (st : EyeState) (r : WaitReason) (s : State) : s.keepsLists (waitEye e st r s) :=
  (setEyeState_keepsLists e st s).trans (keepsLists_of_eq rfl rfl rfl rfl)

theorem proposeEye_keepsLists (e : Eye) (a : Agreement) (s : State) : s.keepsLists (proposeEye e a s) :=
  (setEyeState_keepsLists e .proposed s).trans (keepsLists_of_eq rfl rfl rfl rfl)

theorem placeEqual_keepsLists (cause : Option Eye) (a : Agreement) (e : Eye) (s : State) :
    s.keepsLists (placeEqual cause a e s) := by
  unfold placeEqual
  (repeat' split)
  · exact keepsLists_of_eq rfl rfl rfl rfl
  · exact s.keepsLists_refl
  · exact proposeEye_keepsLists e a s

theorem placeChoice_keepsLists (cause : Option Eye) (outcome : Option Agreement) (s : State) :
    s.keepsLists (placeChoice cause outcome s) := by
  have hset : ∀ a, s.keepsLists (setAgreement a s) := fun a => setAgreement_keepsLists a s
  cases outcome with
  | none =>
    exact (((hset none).trans (waitEye_keepsLists .left _ _ _)).trans (waitEye_keepsLists .right _ _ _)).trans
      (raise_keepsLists _ _)
  | some a =>
    rw [placeChoice_some]
    split
    · exact ((hset _).trans (placeEqual_keepsLists cause a .left _)).trans (placeEqual_keepsLists cause a .right _)
    · exact ((hset _).trans (proposeEye_keepsLists .left a _)).trans (proposeEye_keepsLists .right a _)

theorem awaitPeer_keepsLists (e : Eye) (s : State) : s.keepsLists (awaitPeer e s) :=
  (setAgreement_keepsLists none s).trans (waitEye_keepsLists e _ _ _)

theorem runChoice_keepsLists (cause : Option Eye) (s : State) : s.keepsLists (runChoice cause s) := by
  unfold runChoice
  split
  · exact placeChoice_keepsLists _ _ s
  · exact awaitPeer_keepsLists _ s
  · exact awaitPeer_keepsLists _ s
  · exact setAgreement_keepsLists none s

theorem holdCaps_keepsLists (e : Eye) (c : Option Caps) (s : State) : s.keepsLists (holdCaps e c s) :=
  keepsLists_of_eq (by simp) (by simp) (by simp) (by simp)

theorem rejoinTest_keepsLists (e : Eye) (c : Caps) (s : State) : s.keepsLists (rejoinTest e c s) := by
  unfold rejoinTest
  split
  · exact waitEye_keepsLists e _ _ s
  · split
    · exact waitEye_keepsLists e _ _ s
    · exact (setAgreement_keepsLists _ s).trans (proposeEye_keepsLists e _ _)

theorem partnerWaits_keepsLists (e : Eye) (s : State) : s.keepsLists (partnerWaits e s) := by
  unfold partnerWaits
  (repeat' split)
  · exact waitEye_keepsLists e _ _ s
  · exact writeDirective_keepsLists e _ s
  · exact s.keepsLists_refl

theorem agreementAfterLeave_keepsLists (e : Eye) (s : State) : s.keepsLists (agreementAfterLeave e s) := by
  have hremoved := (clearExclusion_keepsLists s).trans (setAgreement_keepsLists none _)
  unfold agreementAfterLeave
  dsimp only
  (repeat' split)
  · exact hremoved.trans (waitEye_keepsLists e.other _ _ _)
  · exact hremoved
  · exact clearExclusion_keepsLists s

theorem stopRunning_keepsLists (e : Eye) (s : State) : s.keepsLists (stopRunning e s) := by
  unfold stopRunning
  split
  · exact setEyeState_keepsLists e .agreed s
  · exact s.keepsLists_refl

theorem beginPlan_counts (c : Cadence) (a : Agreement) (now : Time) :
    c.sameDrain (c.beginPlan a now) ∧ (c.beginPlan a now).markCounter = c.markCounter := by
  unfold Cadence.beginPlan Cadence.sameDrain
  dsimp only
  split <;> exact ⟨.inr ⟨rfl, rfl⟩, rfl⟩

theorem planStart_keepsLists (s : State) : s.keepsLists (planStart s) := by
  have happlied : s.keepsLists ((applyPendingOps s).mapLme fun l => { l with clearMark := .both false }) :=
    keepsLists_of_eq (by simp) (by simp) (by simp) (by simp)
  unfold planStart
  generalize (applyPendingOps s).mapLme (fun l => { l with clearMark := .both false }) = u at happlied
  dsimp only
  split
  · exact happlied
  · next a _ =>
    obtain ⟨hdrain, hcounter⟩ := beginPlan_counts u.cg a u.timebase
    exact happlied.trans ⟨rfl, rfl, hdrain, hcounter, fun _ => List.Sublist.refl _⟩

theorem completePlan_keepsLists (s : State) : s.keepsLists (completePlan s) := by
  refine keepsLists_of_eq (by simp) (by simp) (by simp) ?_
  unfold completePlan
  split
  · rfl
  · simp

theorem joinEye_keepsLists (plan : Plan) (e : Eye) (s : State) : s.keepsLists (joinEye plan e s) := by
  unfold joinEye
  split
  · exact (setEyeState_keepsLists e .running s).trans (keepsLists_of_eq rfl rfl rfl rfl)
  · exact s.keepsLists_refl

theorem startTake_keepsLists (s : State) : s.keepsLists (startTake s) := by
  have hrolls : s.keepsLists ((s.mapCg fun c =>
      { c with take := c.take + 1, rig := .rolling, drainCount := 0, leadOwed := decide (c.source = .ref) }).mapTp
        fun t => { t with lastReadout := .both none }) :=
    ⟨rfl, rfl, .inl rfl, rfl, fun _ => List.Sublist.refl _⟩
  have hcleared := (hrolls.trans (clearPrevious_keepsLists .left _)).trans (clearPrevious_keepsLists .right _)
  unfold startTake
  dsimp only
  split
  · exact hcleared.trans (planStart_keepsLists _)
  · exact hcleared

theorem mapCg_keepsLists {s : State} (g : Cadence → Cadence) (hdrain : s.cg.sameDrain (g s.cg))
    (hcounter : (g s.cg).markCounter = s.cg.markCounter) : s.keepsLists (s.mapCg g) :=
  ⟨rfl, rfl, hdrain, hcounter, fun _ => List.Sublist.refl _⟩

theorem passMark_counts (m : Time) (number : Option MarkNumber) (c : Cadence) :
    (c.passMark m number).rig = c.rig ∧ (c.passMark m number).drainCount = c.drainCount ∧
      (c.passMark m number).markCounter = c.markCounter := by
  unfold Cadence.passMark
  dsimp only
  (repeat' split) <;> exact ⟨rfl, rfl, rfl⟩

theorem seekEdge_counts (e : Time) (c : Cadence) :
    c.sameDrain (c.seekEdge e) ∧ (c.seekEdge e).markCounter = c.markCounter := by
  unfold Cadence.seekEdge Cadence.sameDrain
  dsimp only
  (repeat' split) <;> exact ⟨.inr ⟨rfl, rfl⟩, rfl⟩

theorem setRate_counts (rate marks : Nat) (c : Cadence) :
    c.sameDrain (c.setRate rate marks) ∧ (c.setRate rate marks).markCounter = c.markCounter := by
  unfold Cadence.setRate Cadence.sameDrain
  split <;> exact ⟨.inr ⟨rfl, rfl⟩, rfl⟩

/-! ## The end of a take and the departure of an eye -/

theorem stoppedTake_listsSound {s : State} (h : s.listsSound) : (stoppedTake s).listsSound := by
  obtain ⟨hwindow, hmarks, hlists⟩ := h
  obtain ⟨hmin, hmax, hdecreasing, hbound, -, -⟩ := (windowSound_iff s).1 hwindow
  have hpe : (stoppedTake s).pe = s.pe := by simp
  have hae : (stoppedTake s).ae = s.ae := by simp
  refine ⟨(windowSound_iff _).2 ?_, (marksConsecutive_iff _).2 ?_, fun e => ?_⟩
  · rw [hpe, hae, (stoppedTake_frame s).2.1]
    exact ⟨hmin, hmax, hdecreasing, hbound, fun hrig => (by cases hrig),
      fun _ => ⟨Nat.lt_of_lt_of_le Nat.zero_lt_two hmin, fun _ _ => Nat.zero_le _⟩⟩
  · rw [hpe, (stoppedTake_frame s).2.1]
    exact (marksConsecutive_iff s).1 hmarks
  · rw [listsNamed_iff, hpe, (stoppedTake_frame s).2.2.2.1]
    exact hlists e

theorem enterDraining_listsSound {s : State} (h : s.listsSound) : (enterDraining s).listsSound := by
  rw [enterDraining_eq]
  exact (keepsLists_of_eq (by simp) (by simp) (by simp) (by simp)).sound (stoppedTake_listsSound h)

theorem testLoss_listsSound (e : Eye) {s : State} (h : s.listsSound) : (testLoss e s).listsSound := by
  unfold testLoss
  split
  · exact enterDraining_listsSound h
  · exact h

/-- A change of one eye's parts, at every slot or at one, leaves the other eye's. -/
theorem mapPart_other {e e' : Eye} (hne : e' ≠ e) (f : EyePart → EyePart) (slot : PairSlot) :
    (slot.mapPart e f).mark = slot.mark ∧ ((slot.mapPart e f).parts.get e') = slot.parts.get e' :=
  ⟨rfl, (PerEye_get_set _ _ _ _).trans (if_neg hne)⟩

/-- An eye that leaves the take: its lists are empty, and the other eye's parts stay (R88, R143). -/
theorem departEye_listsSound (e : Eye) {s : State} (h : s.listsSound) : (departEye e s).listsSound := by
  obtain ⟨u, hu⟩ : ∃ u, u = (clearPrevious e (s.mapEye e fun p => { p with trig := none })).mapTp fun t =>
    { t with
      pulses := t.pulses.set e []
      lastReadout := t.lastReadout.set e none
      inProgress := t.inProgress.map (PlanInProgress.depart e)
      prepared := t.prepared.map (Plan.depart e) } := ⟨_, rfl⟩
  have hpulses : ∀ e', u.tp.pulses.get e' = if e' = e then [] else s.tp.pulses.get e' := fun e' => by
    rw [hu]
    exact PerEye_get_set _ _ _ _
  have hkeep : s.keepsLists u := by
    refine ⟨by rw [hu]; rfl, by rw [hu]; rfl, .inr ⟨by rw [hu]; rfl, by rw [hu]; rfl⟩, by rw [hu]; rfl, fun e' => ?_⟩
    rw [hpulses]
    split
    · exact List.nil_sublist _
    · exact List.Sublist.refl _
  have hsound := hkeep.sound h
  have hlost : (u.mapPe fun p =>
      { p with
        window := p.window.map (PairSlot.mapPart e EyePart.depart)
        triggers := p.triggers.set e [] }).listsSound := by
    refine hsound.shrink rfl (.inr ⟨rfl, rfl⟩) rfl ⟨[], ?_⟩ ⟨[], ?_⟩ fun e' => ?_
    · rw [State.mapPe_pe, List.map_map]
      rfl
    · rw [State.mapPe_pe, List.map_map]
      rfl
    · rw [listsNamed_iff]
      have htriggers : (u.pe.triggers.set e []).get e' = if e' = e then [] else u.pe.triggers.get e' := PerEye_get_set _ _ _ _
      by_cases he : e' = e
      · rw [State.mapPe_tp, hpulses, if_pos he, State.mapPe_pe]
        dsimp only
        rw [htriggers, if_pos he]
        exact ⟨List.nodup_nil, List.nodup_nil, fun p hp => (by cases hp), fun t ht => (by cases ht)⟩
      · rw [State.mapPe_tp, State.mapPe_pe]
        dsimp only
        rw [htriggers, if_neg he]
        have hopen : ∀ m st, windowPart u.pe.window e' m st →
            windowPart (u.pe.window.map (PairSlot.mapPart e EyePart.depart)) e' m st := fun m st hpart =>
          hpart.map fun slot _ hmark hstate => ⟨hmark, by rw [(mapPart_other he EyePart.depart slot).2]; exact hstate⟩
        exact ((listsNamed_iff u e').1 (hsound.2.2 e')).mono (List.Sublist.refl _) (List.Sublist.refl _)
          (fun p _ => hopen _ _) fun t _ => hopen _ _
  have hdepart : departEye e s = retire (u.mapPe fun p =>
      { p with
        window := p.window.map (PairSlot.mapPart e EyePart.depart)
        triggers := p.triggers.set e [] }) := by
    rw [hu]
    rfl
  rw [hdepart]
  exact retire_listsSound hlost

theorem leaveTake_listsSound (e : Eye) {s : State} (h : s.listsSound) : (leaveTake e s).listsSound :=
  testLoss_listsSound e ((raise_keepsLists .eyeChange s).sound h)

theorem invalidCaps_listsSound (e : Eye) {s : State} (h : s.listsSound) : (invalidCaps e s).listsSound := by
  have hout : (invalidOut e s).listsSound := by
    have hdeparted : (if (s.eye e).state.inTake then departEye e s else s).listsSound := by
      split
      · exact departEye_listsSound e h
      · exact h
    exact (((waitEye_keepsLists e _ _ _).trans (clearExclusion_keepsLists _)).trans
      (holdCaps_keepsLists e none _)).sound hdeparted
  rw [invalidCaps_eq]
  (repeat' split)
  · exact ((setAgreement_keepsLists none _).trans (partnerWaits_keepsLists _ _)).sound hout
  · exact leaveTake_listsSound e hout
  · exact hout

theorem takeCaps_listsSound (e : Eye) (raw : RawCaps) {s : State} (h : s.listsSound) : (takeCaps e raw s).listsSound := by
  unfold takeCaps
  split
  · exact invalidCaps_listsSound e h
  · next c _ =>
    have hheld : s.keepsLists (holdCaps e (some c) (clearExclusion s)) :=
      (clearExclusion_keepsLists s).trans (holdCaps_keepsLists e _ _)
    split
    · have hchosen := (hheld.trans (runChoice_keepsLists (some e) _)).sound h
      unfold validCapsSetup
      dsimp only
      split
      · exact (keepsLists_of_eq (t := forgetReadout e _) rfl rfl rfl rfl).sound hchosen
      · exact hchosen
    · rw [validCapsTake_eq]
      refine (rejoinTest_keepsLists e c _).sound ?_
      unfold rejoinOut
      split
      · exact leaveTake_listsSound e ((setEyeState_keepsLists e _ _).sound (departEye_listsSound e (hheld.sound h)))
      · exact hheld.sound h

theorem takeRefuse_listsSound (e : Eye) (index : Byte) {s : State} (h : s.listsSound) : (takeRefuse e index s).listsSound := by
  unfold takeRefuse
  (repeat' split)
  · next a _ =>
    exact ((keepsLists_of_eq (t := excludePair a s) rfl rfl rfl rfl).trans (runChoice_keepsLists none _)).sound h
  · exact h
  · exact (waitEye_keepsLists e _ _ s).sound h
  · exact (countLost_keepsLists e s).sound h

theorem takeAccept_listsSound (e : Eye) (index : Byte) {s : State} (h : s.listsSound) : (takeAccept e index s).listsSound := by
  unfold takeAccept
  split
  · exact ((setEyeState_keepsLists e .agreed s).trans (writeDirective_keepsLists e .halt _)).sound h
  · exact (countLost_keepsLists e s).sound h

theorem leaveAttached_listsSound (e : Eye) {s : State} (h : s.listsSound) : (leaveAttached e s).listsSound := by
  have hreset := (mapEye_keepsLists e EyePort.partialReset s).sound h
  have hdeparted : (if (s.eye e).state.inTake then departEye e (s.mapEye e EyePort.partialReset)
      else clearPrevious e (s.mapEye e EyePort.partialReset)).listsSound := by
    split
    · exact departEye_listsSound e hreset
    · exact (clearPrevious_keepsLists e _).sound hreset
  have hout := ((setEyeState_keepsLists e .detached _).trans (holdCaps_keepsLists e none _)).sound hdeparted
  have hafter := ((raise_keepsLists .eyeChange _).trans (agreementAfterLeave_keepsLists e _)).sound hout
  rw [leaveAttached_eq]
  split
  · exact testLoss_listsSound e hafter
  · exact hafter

/-! ## Pulses and frames -/

theorem mapSlotOf_marks (m : MarkNumber) {f : PairSlot → PairSlot} (hf : ∀ slot, (f slot).mark = slot.mark ∧ (f slot).age = slot.age)
    (l : List PairSlot) :
    (l.map fun slot => if slot.mark = m then f slot else slot).map PairSlot.mark = l.map PairSlot.mark ∧
      (l.map fun slot => if slot.mark = m then f slot else slot).map PairSlot.age = l.map PairSlot.age := by
  simp only [List.map_map]
  constructor <;> refine List.map_congr_left fun slot _ => ?_ <;> simp only [Function.comp_apply] <;> split
  · exact (hf slot).1
  · rfl
  · exact (hf slot).2
  · rfl

/-- A change at one mark leaves the parts of every other mark, and of an eye that it does not touch. -/
theorem windowPart.mapSlotOf {l : List PairSlot} {e : Eye} {m m' : MarkNumber} {st : PartState} {f : PairSlot → PairSlot}
    (hf : m' ≠ m ∨ ∀ slot, (f slot).mark = slot.mark ∧ ((f slot).parts.get e).state = (slot.parts.get e).state)
    (h : windowPart l e m' st) : windowPart (l.map fun slot => if slot.mark = m then f slot else slot) e m' st := by
  refine h.map fun slot _ hmark hstate => ?_
  split
  · next heq =>
    rcases hf with hne | hsame
    · exact absurd (hmark.symm.trans heq) hne
    · exact ⟨(hsame slot).1.trans hmark, (hsame slot).2.trans hstate⟩
  · exact ⟨hmark, hstate⟩

theorem mapSlotOf_part {l : List PairSlot} {e : Eye} {m : MarkNumber} {st st' : PartState} {f : PairSlot → PairSlot}
    (hf : ∀ slot, slot.mark = m → (slot.parts.get e).state = st → (f slot).mark = m ∧ ((f slot).parts.get e).state = st')
    (h : windowPart l e m st) : windowPart (l.map fun slot => if slot.mark = m then f slot else slot) e m st' :=
  h.map fun slot _ hmark hstate => by
    rw [if_pos hmark]
    exact hf slot hmark hstate

theorem erase_marks {p : Pulse} {l : List Pulse} (hp : p ∈ l) (hnodup : (l.map Pulse.mark).Nodup) :
    ∀ q ∈ l.erase p, q.mark ≠ p.mark := by
  intro q hq heq
  have hl : l.Nodup := hnodup.of_map _
  obtain ⟨hne, hmem⟩ := (hl.mem_erase_iff).1 hq
  exact hne (List.inj_on_of_nodup_map hnodup hmem hp heq)

theorem firePulse_pe (e : Eye) (p : Pulse) (s : State) :
    (firePulse e p s).pe = { s.pe with
      triggers := s.pe.triggers.set e (s.pe.triggers.get e ++ [⟨s.tp.triggerNumber.get e, p.mark⟩])
      window := s.pe.window.map fun slot => if slot.mark = p.mark
        then slot.mapPart e (EyePart.fire (s.tp.triggerNumber.get e)) else slot } := rfl

theorem fire_state {e : Eye} {n : BitVec 16} {slot : PairSlot} (h : (slot.parts.get e).state = .triggerPending) :
    ((slot.mapPart e (EyePart.fire n)).parts.get e).state = .awaited := by
  rw [show (slot.mapPart e (EyePart.fire n)).parts.get e = EyePart.fire n (slot.parts.get e) from PerEye_get_set_same _ _ _,
    EyePart.fire, if_pos h]

theorem pulse_other (e e' : Eye) (n : BitVec 16) (hne : e' ≠ e) (slot : PairSlot) :
    (slot.mapPart e (EyePart.fire n)).mark = slot.mark ∧
      ((slot.mapPart e (EyePart.fire n)).parts.get e').state = (slot.parts.get e').state :=
  ⟨rfl, by rw [(mapPart_other hne _ slot).2]⟩

/-- A pulse that fires hands its slot over from the pulses to the trigger list (R134). -/
theorem firePulse_listsSound (e : Eye) {p : Pulse} {s : State} (h : s.listsSound) (hp : p ∈ s.tp.pulses.get e) :
    (firePulse e p s).listsSound := by
  have hdistinct := h.marks_apart.1
  obtain ⟨hmarks, hages⟩ := mapSlotOf_marks p.mark
    (f := PairSlot.mapPart e (EyePart.fire (s.tp.triggerNumber.get e))) (fun _ => ⟨rfl, rfl⟩) s.pe.window
  refine h.shrink (by simp) (.inr (by simp)) (by simp) ⟨[], by rw [firePulse_pe]; exact hages.symm⟩
    ⟨[], by rw [firePulse_pe]; exact hmarks.symm⟩ fun e' => ?_
  have hnamed := (listsNamed_iff s e').1 (h.2.2 e')
  rw [listsNamed_iff, firePulse_pe, firePulse_tp]
  dsimp only
  rw [PerEye_get_set, PerEye_get_set]
  by_cases he : e' = e
  · subst he
    rw [if_pos rfl, if_pos rfl]
    obtain ⟨hpulses, htriggers, hpending, hawaited⟩ := hnamed
    have hfired := hpending p hp
    have hother : ∀ t ∈ s.pe.triggers.get e', t.mark ≠ p.mark := fun t ht heq => by
      have hsame := hawaited t ht
      rw [heq] at hsame
      cases windowPart.unique hdistinct hfired hsame
    refine ⟨hpulses.sublist (List.erase_sublist.map _), ?_, fun q hq => ?_, fun t ht => ?_⟩
    · rw [List.map_append, List.map_cons, List.map_nil, List.nodup_append]
      refine ⟨htriggers, List.nodup_singleton _, fun m hm m' hm' heq => ?_⟩
      obtain ⟨t, ht, rfl⟩ := List.mem_map.1 hm
      rw [List.mem_singleton] at hm'
      exact hother t ht (heq.trans hm')
    · exact windowPart.mapSlotOf (.inl (erase_marks hp hpulses q hq)) (hpending q (List.mem_of_mem_erase hq))
    · rcases List.mem_append.1 ht with ht | ht
      · exact windowPart.mapSlotOf (.inl (hother t ht)) (hawaited t ht)
      · rw [List.mem_singleton] at ht
        rw [ht]
        exact mapSlotOf_part (fun slot hmark hstate => ⟨hmark, fire_state hstate⟩) hfired
  · rw [if_neg he, if_neg he]
    exact hnamed.mono (List.Sublist.refl _) (List.Sublist.refl _)
      (fun q _ hq => windowPart.mapSlotOf (.inr (pulse_other e e' _ he)) hq)
      fun t _ ht => windowPart.mapSlotOf (.inr (pulse_other e e' _ he)) ht

theorem matchSlot_fields (s : State) (e : Eye) (f : RawFrame) (slot : PairSlot) :
    (s.matchSlot e f slot).mark = slot.mark ∧ (s.matchSlot e f slot).age = slot.age ∧
      (s.matchSlot e f slot).parts = slot.parts.set e (EyePart.matched slot.mark f (slot.parts.get e)) := by
  unfold State.matchSlot State.derive
  dsimp only
  (repeat' split) <;> exact ⟨rfl, rfl, rfl⟩

/-- A matched FRAME takes its entry, and its slot's part is open no more (R137). -/
theorem matchFrame_listsSound (e : Eye) (f : RawFrame) {s : State} (h : s.listsSound) : (matchFrame e f s).listsSound := by
  unfold matchFrame
  split
  · exact (countLost_keepsLists e s).sound h
  · next entry hentry =>
    obtain ⟨u, hu⟩ : ∃ u, u = s.mapPe fun p => { p with triggers := p.triggers.set e ((p.triggers.get e).erase entry) } :=
      ⟨_, rfl⟩
    have hentry' : entry ∈ s.pe.triggers.get e := List.mem_of_find?_eq_some hentry
    dsimp only
    rw [← hu]
    have hdistinct := h.marks_apart.1
    obtain ⟨hmarks, hages⟩ := mapSlotOf_marks entry.mark (f := u.matchSlot e f)
      (fun slot => ⟨(matchSlot_fields u e f slot).1, (matchSlot_fields u e f slot).2.1⟩) u.pe.window
    have hwindow : u.pe.window = s.pe.window := by rw [hu]; rfl
    have hpulses : u.tp = s.tp := by rw [hu]; rfl
    have htriggers : ∀ e', u.pe.triggers.get e' =
        if e' = e then (s.pe.triggers.get e).erase entry else s.pe.triggers.get e' := fun e' => by
      rw [hu]
      exact PerEye_get_set _ _ _ _
    refine retire_listsSound (h.shrink (t := Machine.mapSlotOf entry.mark (u.matchSlot e f) u) (by rw [hu]; rfl)
      (.inr ⟨by rw [hu]; rfl, by rw [hu]; rfl⟩) (by rw [hu]; rfl) ⟨[], by rw [← hwindow]; exact hages.symm⟩
      ⟨[], by rw [← hwindow]; exact hmarks.symm⟩ fun e' => ?_)
    have hnamed := (listsNamed_iff s e').1 (h.2.2 e')
    change listsNamed (u.pe.window.map fun slot => if slot.mark = entry.mark then u.matchSlot e f slot else slot) e'
      (u.tp.pulses.get e') (u.pe.triggers.get e')
    rw [htriggers, hpulses, hwindow]
    by_cases he : e' = e
    · subst he
      rw [if_pos rfl]
      obtain ⟨hp, ht, hpending, hawaited⟩ := id hnamed
      have htaken := hawaited entry hentry'
      refine hnamed.mono (List.Sublist.refl _) List.erase_sublist (fun q hq hpart => ?_) fun t htmem hpart => ?_
      · refine windowPart.mapSlotOf (.inl fun heq => ?_) hpart
        rw [heq] at hpart
        cases windowPart.unique hdistinct hpart htaken
      · refine windowPart.mapSlotOf (.inl fun heq => ?_) hpart
        obtain ⟨hne, hmem⟩ := ((ht.of_map _).mem_erase_iff).1 htmem
        exact hne (List.inj_on_of_nodup_map ht hmem hentry' heq)
    · rw [if_neg he]
      have hsame : ∀ slot, (u.matchSlot e f slot).mark = slot.mark ∧
          ((u.matchSlot e f slot).parts.get e').state = (slot.parts.get e').state := fun slot => by
        refine ⟨(matchSlot_fields u e f slot).1, ?_⟩
        rw [(matchSlot_fields u e f slot).2.2, PerEye_get_set, if_neg he]
      exact hnamed.mono (List.Sublist.refl _) (List.Sublist.refl _) (fun q _ hq => windowPart.mapSlotOf (.inr hsame) hq)
        fun t _ ht => windowPart.mapSlotOf (.inr hsame) ht

end Sys2Proof.Machine
end

section
/-! PROOFS. The pair window and the trigger lists stay sound (O56): the marks, the resets, and the statement. -/

namespace Sys2Proof.Machine

/-! ## Laying a pulse -/

/-- An eye's pulse may be laid at a mark: the mark's slot waits for it, and no pulse of the mark is laid yet. -/
def State.awaitsPulse (s : State) (e : Eye) (number : MarkNumber) : Prop :=
  windowPart s.pe.window e number .triggerPending ∧ ∀ p ∈ s.tp.pulses.get e, p.mark ≠ number

/-- The scheduled pulse joins the list (R85). -/
theorem schedule_listsSound {e : Eye} {number : MarkNumber} {s t : State} (h : s.listsSound) (hawaits : s.awaitsPulse e number)
    (hframe : t.ae.frame = s.ae.frame) (hcg : t.cg = s.cg) (hpe : t.pe = s.pe) {time : Time}
    (hpulses : ∀ e', t.tp.pulses.get e' = if e' = e then s.tp.pulses.get e ++ [⟨number, time⟩] else s.tp.pulses.get e') :
    t.listsSound := by
  refine h.shrink (by rw [hframe]) (.inr (by rw [hcg]; exact ⟨rfl, rfl⟩)) (by rw [hcg]) ⟨[], by rw [hpe]; rfl⟩
    ⟨[], by rw [hpe]; rfl⟩ fun e' => ?_
  have hnamed := (listsNamed_iff s e').1 (h.2.2 e')
  rw [listsNamed_iff, hpe, hpulses]
  split
  · next he =>
    subst he
    obtain ⟨hnodup, htriggers, hpending, hawaited⟩ := hnamed
    refine ⟨?_, htriggers, fun p hp => ?_, hawaited⟩
    · rw [List.map_append, List.map_cons, List.map_nil, List.nodup_append]
      refine ⟨hnodup, List.nodup_singleton _, fun m hm m' hm' heq => ?_⟩
      obtain ⟨p, hp, rfl⟩ := List.mem_map.1 hm
      rw [List.mem_singleton] at hm'
      exact hawaits.2 p hp (heq.trans hm')
    · rcases List.mem_append.1 hp with hp | hp
      · exact hpending p hp
      · rw [List.mem_singleton] at hp
        rw [hp]
        exact hawaits.1
  · exact hnamed

theorem layPulse_listsSound (plan : Plan) (e : Eye) (number : MarkNumber) {s : State} (h : s.listsSound)
    (hawaits : plan.serves e = true → plan.skipped = false → s.awaitsPulse e number) :
    (layPulse plan e number s).listsSound := by
  unfold layPulse
  dsimp only
  split
  · next hlaid =>
    rw [Bool.and_eq_true, Bool.not_eq_true'] at hlaid
    obtain ⟨u, hu⟩ : ∃ u, u = s.mapTp fun t => { t with
      pulses := t.pulses.set e (t.pulses.get e ++ [⟨number, plan.pulseTime e s.timebase⟩])
      lastReadout := t.lastReadout.set e (some (after (plan.pulseTime e s.timebase) plan.exposure)) } := ⟨_, rfl⟩
    have hpulses : ∀ e', u.tp.pulses.get e' =
        if e' = e then s.tp.pulses.get e ++ [⟨number, plan.pulseTime e s.timebase⟩] else s.tp.pulses.get e' := fun e' => by
      rw [hu]
      exact PerEye_get_set _ _ _ _
    have hsound : u.listsSound :=
      schedule_listsSound h (hawaits hlaid.1 hlaid.2) (by rw [hu]; rfl) (by rw [hu]; rfl) (by rw [hu]; rfl) hpulses
    rw [← hu]
    split
    · refine firePulse_listsSound e hsound ?_
      rw [hpulses, if_pos rfl]
      exact List.mem_append_right _ (List.mem_singleton.2 rfl)
    · exact hsound
  · exact h

/-- Laying one eye's pulse leaves what the other awaits. -/
theorem layPulse_awaitsPulse (plan : Plan) {e e' : Eye} (hne : e' ≠ e) (number number' : MarkNumber) {s : State}
    (h : s.awaitsPulse e' number') : (layPulse plan e number s).awaitsPulse e' number' := by
  have hother : ∀ g, (s.mapTp fun t => { t with
      pulses := t.pulses.set e (t.pulses.get e ++ g)
      lastReadout := t.lastReadout.set e (some (after (plan.pulseTime e s.timebase) plan.exposure)) }).tp.pulses.get e' =
        s.tp.pulses.get e' := fun g => (PerEye_get_set _ _ _ _).trans (if_neg hne)
  unfold layPulse State.awaitsPulse
  dsimp only
  (repeat' split)
  · rw [firePulse_pe, firePulse_tp]
    dsimp only
    rw [PerEye_get_set, if_neg hne, hother]
    exact ⟨windowPart.mapSlotOf (.inr (pulse_other e e' _ hne)) h.1, h.2⟩
  · rw [hother]
    exact h
  · exact h

/-! ## The rolling mark -/

theorem openPart_pending {plan : Plan} {e : Eye} (hserves : plan.serves e = true) (hlaid : plan.skipped = false) :
    (plan.openPart e).state = .triggerPending := by
  obtain ⟨hincluded, hdeparted⟩ := (Bool.and_eq_true _ _).mp hserves
  simp only [Bool.not_eq_true'] at hdeparted
  simp [Plan.openPart, hincluded, hlaid, hdeparted]

/-- The window of a mark, aged, without its own slot yet (R132). -/
theorem rollMarkJoined_window (m : Time) (plan : Plan) {s : State} (h : s.listsSound) (hrig : s.cg.rig = .rolling) :
    agesSound s.ae.frame.depth s.cg ((rollMarkJoined m plan s).pe.window.map PairSlot.age) ∧
      (∀ a ∈ (rollMarkJoined m plan s).pe.window.map PairSlot.age, 0 < a) ∧
      marksUpTo s.cg.markCounter ((rollMarkJoined m plan s).pe.window.map PairSlot.mark) ∧
      ∀ e, (rollMarkJoined m plan s).listsNameOpenSlots e := by
  obtain ⟨hwindow, hmarks, hlists⟩ := h
  have hpe : (rollMarkJoined m plan s).pe =
      (ageWindow (s.mapCg (Cadence.numberMark m s.timebase))).pe := by simp [rollMarkJoined]
  obtain ⟨hmin, hmax, hdecreasing, hbound, -, -⟩ := (windowSound_iff s).1 hwindow
  obtain ⟨⟨l, hmark⟩, l', hage⟩ := ageWindow_marks (s.mapCg (Cadence.numberMark m s.timebase))
  rw [State.mapCg_pe] at hmark hage
  have hlt := ageWindow_age_lt (s := s.mapCg (Cadence.numberMark m s.timebase)) hdecreasing
    (by rwa [List.forall_mem_map] at hbound)
  have hgrown : (s.pe.window.map fun p => p.age + 1).Pairwise fun a b => b < a := by
    rw [List.pairwise_map] at hdecreasing ⊢
    exact hdecreasing.imp fun hab => Nat.succ_lt_succ hab
  rw [hpe]
  refine ⟨⟨hmin, hmax, ?_, ?_, fun hsetup => ?_, fun hdraining => ?_⟩, fun a ha => ?_, ?_, fun e => ?_⟩
  · rw [hage] at hgrown
    exact (List.pairwise_append.1 hgrown).2.1
  · rw [List.forall_mem_map]
    exact hlt
  · rw [hrig] at hsetup
    cases hsetup
  · rw [hrig] at hdraining
    cases hdraining
  · have hmem : a ∈ s.pe.window.map fun p => p.age + 1 := hage ▸ List.mem_append_right _ ha
    obtain ⟨p, -, rfl⟩ := List.mem_map.1 hmem
    exact Nat.succ_pos _
  · rw [marksConsecutive_iff, hmark] at hmarks
    exact hmarks.suffix
  · have haged : (ageWindow (s.mapCg (Cadence.numberMark m s.timebase))).listsNameOpenSlots e :=
      ageWindow_lists (s := s.mapCg (Cadence.numberMark m s.timebase)) (hlists e)
    have hjoined := (joinEye_keepsLists plan .left (ageWindow (s.mapCg (Cadence.numberMark m s.timebase)))).trans
      (joinEye_keepsLists plan .right _)
    rw [listsNamed_iff] at haged ⊢
    exact haged.mono (hjoined.2.2.2.2 e) (by rw [hpe]) (fun _ _ hp => hpe ▸ hp) fun _ _ ht => hpe ▸ ht

/-- The window with the mark's slot: sound, and each served eye of a plan that fires awaits its pulse. -/
theorem rollMarkOpened_listsSound (m : Time) (plan : Plan) {s : State} (h : s.listsSound) (hrig : s.cg.rig = .rolling) :
    (rollMarkOpened m plan s).listsSound ∧
      ∀ e, plan.serves e = true → plan.skipped = false → (rollMarkOpened m plan s).awaitsPulse e s.cg.markCounter := by
  obtain ⟨hages, hpos, hmarks, hlists⟩ := rollMarkJoined_window m plan h hrig
  obtain ⟨u, hu⟩ : ∃ u, u = rollMarkJoined m plan s := ⟨_, rfl⟩
  have hframe : u.ae = s.ae := by rw [hu]; simp [rollMarkJoined]
  have hcg : u.cg = s.cg.numberMark m s.timebase := by rw [hu]; simp [rollMarkJoined]
  have hcounter : u.cg.markCounter = s.cg.markCounter + 1 := by rw [hcg]; rfl
  have hroll : u.cg.rig = .rolling := by
    rw [hcg]
    exact (passMark_counts m (some s.cg.markCounter) s.cg).1.trans hrig
  rw [← hu] at hages hpos hmarks hlists
  obtain ⟨slot, hslot⟩ : ∃ slot, slot = u.openSlot plan s.cg.markCounter s.cg.inHoldover s.cg.lock.stepOwed := ⟨_, rfl⟩
  have hmark : slot.mark = s.cg.markCounter := by rw [hslot]; rfl
  have hage : slot.age = 0 := by rw [hslot]; rfl
  have hopened : rollMarkOpened m plan s = retire (u.mapPe fun p => { p with window := p.window ++ [slot] }) := by
    rw [hslot, hu]
    rfl
  obtain ⟨hmin, hmax, hdecreasing, hbound, -, -⟩ := hages
  have hsound : (u.mapPe fun p => { p with window := p.window ++ [slot] }).listsSound := by
    refine ⟨(windowSound_iff _).2 ?_, (marksConsecutive_iff _).2 ?_, fun e => ?_⟩
    · rw [State.mapPe_pe, List.map_append, List.map_cons, List.map_nil, hage]
      refine ⟨by rw [State.mapPe_ae, hframe]; exact hmin, by rw [State.mapPe_ae, hframe]; exact hmax, ?_, fun a ha => ?_,
        fun hrig' => ?_, fun hrig' => ?_⟩
      · rw [List.pairwise_append]
        exact ⟨hdecreasing, List.pairwise_singleton _ _, fun a ha b hb => by rw [List.mem_singleton.1 hb]; exact hpos a ha⟩
      · rw [State.mapPe_ae, hframe]
        rcases List.mem_append.1 ha with ha | ha
        · exact hbound a ha
        · rw [List.mem_singleton.1 ha]
          exact Nat.lt_of_lt_of_le Nat.zero_lt_two hmin
      · rw [State.mapPe_cg, hroll] at hrig'
        cases hrig'
      · rw [State.mapPe_cg, hroll] at hrig'
        cases hrig'
    · rw [State.mapPe_pe, List.map_append, List.map_cons, List.map_nil, hmark, State.mapPe_cg, hcounter]
      exact hmarks.concat
    · exact ((listsNamed_iff u e).1 (hlists e)).mono (List.Sublist.refl _) (List.Sublist.refl _)
        (fun _ _ hp => hp.append) fun _ _ ht => ht.append
  rw [hopened]
  refine ⟨retire_listsSound hsound, fun e hserves hlaid => ⟨?_, fun p hp heq => ?_⟩⟩
  · rw [retire, retireFrom_window]
    refine windowPart.dropWhile rfl ⟨slot, List.mem_append_right _ (List.mem_singleton.2 rfl), hmark, ?_⟩
    rw [hslot]
    exact (congrArg EyePart.state (PerEye_get_of plan.openPart e)).trans (openPart_pending hserves hlaid)
  · rw [retire, retireFrom_pulses] at hp
    obtain ⟨-, -, hpending, -⟩ := hlists e
    have hmem := windowPart.mark_mem (hpending p (List.mem_filter.1 hp).1)
    rw [heq] at hmem
    refine (hmarks.apart ?_).2 hmem
    have hlen := agesSound.length_le hdecreasing hbound
    rw [List.length_map] at hlen ⊢
    omega

theorem rollingMarkEvent_listsSound (m : Time) {s : State} (h : s.listsSound) (hrig : s.cg.rig = .rolling) :
    (rollingMarkEvent m s).listsSound := by
  obtain ⟨u, hu⟩ : ∃ u, u = completePlan (waitUntil m s) := ⟨_, rfl⟩
  have hdone : u.listsSound := by
    rw [hu]
    exact ((keepsLists_of_eq (t := waitUntil m s) (by simp) (by simp) (by simp) (by simp)).trans (completePlan_keepsLists _)).sound h
  have hroll : u.cg.rig = .rolling := by rw [hu]; simp [hrig]
  unfold rollingMarkEvent
  dsimp only
  rw [← hu]
  split
  · exact hdone
  · next plan _ =>
    obtain ⟨hopened, hawaits⟩ := rollMarkOpened_listsSound m plan hdone hroll
    have hleft := layPulse_listsSound plan .left u.cg.markCounter hopened (hawaits .left)
    have hright := layPulse_listsSound plan .right u.cg.markCounter hleft fun hserves hlaid =>
      layPulse_awaitsPulse plan (by decide) _ _ (hawaits .right hserves hlaid)
    rw [rollMark_eq]
    exact ((keepsLists_of_eq (t := (rollMarkLaid m plan u).mapTp fun t => { t with prepared := none }) rfl rfl rfl rfl).trans
      (planStart_keepsLists _)).sound hright

/-! ## The drain mark -/

theorem drainMarkEvent_listsSound (m : Time) {s : State} (h : s.listsSound) (hrig : s.cg.rig = .draining) :
    (drainMarkEvent m s).listsSound := by
  obtain ⟨hwindow, hmarks, hlists⟩ := h
  obtain ⟨hmin, hmax, hdecreasing, hbound, -, hdraining⟩ := (windowSound_iff s).1 hwindow
  obtain ⟨hshort, hcount⟩ := hdraining hrig
  obtain ⟨v, hv⟩ : ∃ v, v = (waitUntil m s).mapCg (Cadence.drainMark m (waitUntil m s).timebase) := ⟨_, rfl⟩
  have hvpe : v.pe = s.pe := by rw [hv]; simp
  have hvae : v.ae = s.ae := by rw [hv]; simp
  have hvtp : v.tp = s.tp := by rw [hv]; simp
  have hvcg : v.cg = s.cg.drainMark m (waitUntil m s).timebase := by rw [hv]; simp
  obtain ⟨⟨l, hmark⟩, l', hage⟩ := ageWindow_marks v
  rw [hvpe] at hmark hage
  have hlt := ageWindow_age_lt (s := v) (by rw [hvpe]; exact hdecreasing)
    (by rw [hvpe, hvae]; rwa [List.forall_mem_map] at hbound)
  rw [hvae] at hlt
  have hgrown : (s.pe.window.map fun p => p.age + 1).Pairwise fun a b => b < a := by
    rw [List.pairwise_map] at hdecreasing ⊢
    exact hdecreasing.imp fun hab => Nat.succ_lt_succ hab
  have hages : ∀ a ∈ (ageWindow v).pe.window.map PairSlot.age, s.cg.drainCount + 1 ≤ a := fun a ha => by
    have hmem : a ∈ s.pe.window.map fun p => p.age + 1 := hage ▸ List.mem_append_right _ ha
    obtain ⟨p, hp, rfl⟩ := List.mem_map.1 hmem
    exact Nat.succ_le_succ (hcount p.age (List.mem_map_of_mem hp))
  have hnewLists : ∀ e, (ageWindow v).listsNameOpenSlots e := fun e => ageWindow_lists (by
    rw [listsNamed_iff, hvpe, hvtp]
    exact hlists e)
  have hnewDecreasing : ((ageWindow v).pe.window.map PairSlot.age).Pairwise fun a b => b < a := by
    rw [hage] at hgrown
    exact (List.pairwise_append.1 hgrown).2.1
  have hnewMarks : marksUpTo s.cg.markCounter ((ageWindow v).pe.window.map PairSlot.mark) := by
    rw [marksConsecutive_iff, hmark] at hmarks
    exact hmarks.suffix
  have hcg : (ageWindow v).cg = s.cg.drainMark m (waitUntil m s).timebase := by simp [hvcg]
  have hae : (ageWindow v).ae = s.ae := by simp [hvae]
  obtain ⟨hrig', hcount', hcounter'⟩ := passMark_counts m none s.cg
  have hcounter : (s.cg.drainMark m (waitUntil m s).timebase).markCounter = s.cg.markCounter := hcounter'
  have hdrained : (s.cg.drainMark m (waitUntil m s).timebase).drainCount = s.cg.drainCount + 1 := congrArg (· + 1) hcount'
  unfold drainMarkEvent
  dsimp only
  rw [← hv, hcg, hae, hdrained]
  split
  · next hlast =>
    have hempty : (ageWindow v).pe.window.map PairSlot.age = [] := List.eq_nil_iff_forall_not_mem.2 fun a ha => by
      have hlow := hages a ha
      obtain ⟨p, hp, rfl⟩ := List.mem_map.1 ha
      have hhigh := hlt p hp
      omega
    have hended : ((ageWindow v).mapCg Cadence.endDrain).listsSound := by
      refine ⟨(windowSound_iff _).2 ⟨?_, ?_, hnewDecreasing, ?_, fun _ => hempty, fun hdrain => (by cases hdrain)⟩,
        (marksConsecutive_iff _).2 ?_, hnewLists⟩
      · rw [State.mapCg_ae, hae]
        exact hmin
      · rw [State.mapCg_ae, hae]
        exact hmax
      · rw [State.mapCg_pe, hempty]
        exact fun a ha => by cases ha
      · rw [State.mapCg_pe, State.mapCg_cg, hcg, show (Cadence.endDrain (s.cg.drainMark m (waitUntil m s).timebase)).markCounter =
          s.cg.markCounter from hcounter]
        exact hnewMarks
    unfold returnChoice
    dsimp only
    split
    · exact (runChoice_keepsLists none _).sound hended
    · exact hended
  · next hmore =>
    refine ⟨(windowSound_iff _).2 ?_, (marksConsecutive_iff _).2 ?_, hnewLists⟩
    · rw [hcg, hae]
      refine ⟨hmin, hmax, hnewDecreasing, by rw [List.forall_mem_map]; exact hlt, fun hsetup => ?_, fun _ => ?_⟩
      · have hstays : (s.cg.drainMark m (waitUntil m s).timebase).rig = .draining := hrig'.trans hrig
        rw [hstays] at hsetup
        cases hsetup
      · rw [hdrained]
        exact ⟨Nat.lt_of_not_le hmore, hages⟩
    · rw [hcg, hcounter]
      exact hnewMarks

/-! ## Every move -/

theorem atReset_listsSound {s : State} (hframe : s.ae = .atReset) (hcg : s.cg.rig = .setup) (hpe : s.pe = .atReset)
    (hpulses : ∀ e, s.tp.pulses.get e = []) : s.listsSound := by
  refine ⟨?_, ?_, fun e => ?_⟩
  · rw [windowSound_iff, hframe, hpe]
    exact ⟨by decide, by decide, List.Pairwise.nil, fun a ha => (by cases ha), fun _ => rfl,
      fun hdrain => (by rw [hcg] at hdrain; cases hdrain)⟩
  · rw [marksConsecutive_iff, hpe]
    exact fun i hi => absurd hi (Nat.not_lt_zero i)
  · rw [listsNamed_iff, hpulses, hpe]
    have hnone : Pairing.atReset.triggers.get e = [] := by cases e <;> rfl
    rw [hnone]
    exact ⟨List.nodup_nil, List.nodup_nil, fun p hp => (by cases hp), fun t ht => (by cases ht)⟩

theorem enforceReset_listsSound (k : ResetKind) (s : State) : (enforceReset k s).listsSound :=
  atReset_listsSound (by cases k <;> rfl) (by cases k <;> rfl) (by cases k <;> rfl) fun e => by cases k <;> cases e <;> rfl

/-- A step of REFIN marks slots with REF_STEP alone (R22). -/
theorem refEdge_listsSound {s : State} (h : s.listsSound) : (refEdge s).listsSound := by
  have hrefStep : ∀ (m : MarkNumber) (l : List PairSlot) (e : Eye) (m' : MarkNumber) (st : PartState), windowPart l e m' st →
      windowPart (l.map fun slot => if slot.mark = m then { slot with refStep := true } else slot) e m' st :=
    fun m l e m' st hpart => windowPart.mapSlotOf (.inr fun _ => ⟨rfl, rfl⟩) hpart
  unfold refEdge
  split
  · exact h
  · obtain ⟨hdrain, hcounter⟩ := seekEdge_counts s.timebase s.cg
    exact (mapCg_keepsLists _ hdrain hcounter).sound h
  · next w p _ _ _ _ =>
    split
    · have hattributed : (s.mapCg (Cadence.edgeTaken s.ae w p s.timebase)).listsSound :=
        (mapCg_keepsLists _ (by rw [edgeTaken_eq]; exact .inr ⟨rfl, rfl⟩) (by rw [edgeTaken_eq])).sound h
      unfold attributeEdge
      dsimp only
      (repeat' split)
      · next m _ =>
        have hraised := (raise_keepsLists .refBack _).sound hattributed
        obtain ⟨hmarks, hages⟩ := mapSlotOf_marks m (f := fun slot => { slot with refStep := true })
          (fun _ => ⟨rfl, rfl⟩) (raise .refBack (s.mapCg (Cadence.edgeTaken s.ae w p s.timebase))).pe.window
        refine hraised.shrink rfl (.inr ⟨rfl, rfl⟩) rfl ⟨[], hages.symm⟩ ⟨[], hmarks.symm⟩ fun e => ?_
        exact ((listsNamed_iff _ e).1 (hraised.2.2 e)).mono (List.Sublist.refl _) (List.Sublist.refl _)
          (fun q _ hq => hrefStep m _ e _ _ hq) fun t _ ht => hrefStep m _ e _ _ ht
      · exact (raise_keepsLists .refBack _).sound hattributed
      · exact hattributed
    · exact h
  · exact h

theorem decision_listsSound {s t : State} {r : Request} (h : s.listsSound) (hd : Decision s r t) : t.listsSound := by
  cases hd with
  | unchanged => exact h
  | profile p f hrig hf =>
    obtain ⟨hwindow, -, hlists⟩ := h
    obtain ⟨-, -, -, -, hempty, -⟩ := (windowSound_iff s).1 hwindow
    obtain ⟨-, -, -, hmin, hmax, -⟩ := readTakeFrame_frameInRange hf
    have hnone : s.pe.window = [] := List.map_eq_nil_iff.1 (hempty hrig)
    have hframe : (s.mapAe fun a => { a with frame := f }).listsSound := by
      refine ⟨(windowSound_iff _).2 ?_, (marksConsecutive_iff _).2 ?_, hlists⟩
      · rw [State.mapAe_pe, hnone]
        refine ⟨hmin, hmax, List.Pairwise.nil, fun a ha => (by cases ha), fun _ => rfl, fun hdrain => ?_⟩
        rw [State.mapAe_cg, hrig] at hdrain
        cases hdrain
      · rw [State.mapAe_pe, hnone]
        exact fun i hi => absurd hi (Nat.not_lt_zero i)
    exact ((clearExclusion_keepsLists _).trans (runChoice_keepsLists none _)).sound hframe
  | toRef code hrig => exact (mapCg_keepsLists _ (.inr ⟨rfl, rfl⟩) rfl).sound h
  | toFree code hrig => exact (mapCg_keepsLists _ (.inr ⟨rfl, rfl⟩) rfl).sound h
  | rate target marks hsource =>
    obtain ⟨hdrain, hcounter⟩ := setRate_counts (limitedRate s.ae.ceiling target.toNat) marks.toNat s.cg
    exact (mapCg_keepsLists _ hdrain hcounter).sound h
  | shutter mode value m => exact (keepsLists_of_eq rfl rfl rfl rfl).sound h
  | demand axes focus iris zoom => exact (keepsLists_of_eq rfl rfl rfl rfl).sound h
  | roll hroll => exact (startTake_keepsLists s).sound h
  | cut hrig => exact enterDraining_listsSound h
  | enable eye action e =>
    unfold enablePort
    split
    · exact h
    · exact (mapEye_keepsLists e _ s).sound h
  | disable eye action e =>
    have hoff := (mapEye_keepsLists e (fun p => { p with enabled := false }) s).sound h
    unfold disablePort
    dsimp only
    (repeat' split)
    · exact h
    · exact leaveAttached_listsSound e hoff
    · exact (mapEye_keepsLists e _ _).sound hoff
  | stageReset => exact (keepsLists_of_eq rfl rfl rfl rfl).sound h
  | stageWrite offset data hfits => exact (keepsLists_of_eq rfl rfl rfl rfl).sound h
  | commit slot copy hslot hcopy hclash => exact (keepsLists_of_eq (by simp) (by simp) (by simp) (by simp)).sound h
  | discard slot hslot => exact (keepsLists_of_eq (by simp) (by simp) (by simp) (by simp)).sound h
  | save slot hslot hstore => exact (keepsLists_of_eq rfl rfl rfl rfl).sound h
  | clear mask => exact (keepsLists_of_eq rfl rfl rfl rfl).sound h

theorem earliestPulse_mem {now : Time} {l : List Pulse} {p : Pulse} (h : earliestPulse now l = some p) : p ∈ l := by
  induction l generalizing p with
  | nil => cases h
  | cons q rest ih =>
    rw [earliestPulse] at h
    split at h
    · obtain rfl := Option.some.inj h
      exact List.mem_cons_self ..
    · next r hr =>
      split at h
      · obtain rfl := Option.some.inj h
        exact List.mem_cons_of_mem _ (ih hr)
      · obtain rfl := Option.some.inj h
        exact List.mem_cons_self ..

theorem endReset_listsSound (k : ResetKind) {s : State} (h : s.listsSound) : (endReset k s).listsSound := by
  obtain ⟨u, hu⟩ : ∃ u, u = (advance (s.resets.remaining k) s).mapResets (Resets.lift k) := ⟨_, rfl⟩
  have hlifted : u.listsSound := by
    rw [hu]
    exact (keepsLists_of_eq (by simp) (by simp) (by simp) (by simp)).sound h
  unfold endReset
  rw [← hu]
  dsimp only
  (repeat' split)
  · exact hlifted
  · exact (keepsLists_of_eq (t := releasePart u) rfl rfl rfl rfl).sound hlifted
  · exact h

theorem Move.listsSound {c : Instr} {s t : State} (hs : s.listsSound) (h : Move s c t) : t.listsSound := by
  have taken : ∀ e, (emptySlot e s).listsSound := fun e => (mapEye_keepsLists e _ s).sound hs
  have waited : ∀ n, (advance n s).listsSound := fun n =>
    (keepsLists_of_eq (by simp) (by simp) (by simp) (by simp)).sound hs
  have clocked : ∀ m, (waitUntil m s).listsSound := fun m => waited _
  have passed : ∀ m, (waitUntil m s).keepsLists ((waitUntil m s).mapCg fun c => c.passMark m none) := fun m => by
    obtain ⟨hrig, hcount, hcounter⟩ := passMark_counts m none (waitUntil m s).cg
    exact mapCg_keepsLists _ (.inr ⟨hrig, hcount⟩) hcounter
  cases h with
  | nothing => exact hs
  | rcpStart early => exact (keepsLists_of_eq (by simp) (by simp) (by simp) (by simp)).sound hs
  | judged _ n v =>
    exact judged_keeps_of_decisions (fun _ _ h => (keepsLists_of_eq rfl rfl rfl rfl).sound h)
      (fun _ _ _ => decision_listsSound) (fun k s _ => enforceReset_listsSound k s) n v hs
  | eyeStart e early => exact (keepsLists_of_eq (by simp) (by simp) (by simp) (by simp)).sound hs
  | eyeEnd _ e n r => exact (keepsLists_of_eq (by simp) (by simp) (by simp) (by simp)).sound hs
  | capsTaken e raw => exact takeCaps_listsSound e raw (taken e)
  | acceptTaken e index => exact takeAccept_listsSound e index (taken e)
  | refuseTaken e index => exact takeRefuse_listsSound e index (taken e)
  | frameTaken e f => exact matchFrame_listsSound e f (taken e)
  | presLevel _ e b => exact (mapEye_keepsLists e _ s).sound hs
  | presRise e => exact (mapEye_keepsLists e _ s).sound hs
  | presFall e => exact (mapEye_keepsLists e _ s).sound hs
  | settled e n h =>
    exact (((waitEye_keepsLists e _ _ _).trans (mapEye_keepsLists e _ _)).trans (raise_keepsLists _ _)).sound (waited n)
  | detached e n => exact leaveAttached_listsSound e (waited n)
  | rollingMark m h => exact rollingMarkEvent_listsSound m hs ((markKind_iff s).2.2.1.1 (dueMark_eq_some h).2.1).1
  | planComplete => exact (completePlan_keepsLists s).sound hs
  | drainMark m h => exact drainMarkEvent_listsSound m hs ((markKind_iff s).2.2.2.1 (dueMark_eq_some h).2.1)
  | leadMark m h =>
    refine (State.keepsLists.trans ?_ (planStart_keepsLists _)).sound (clocked m)
    obtain ⟨hrig, hcount, hcounter⟩ := passMark_counts m none (waitUntil m s).cg
    exact mapCg_keepsLists _ (.inr ⟨hrig, hcount⟩) hcounter
  | setupMark m => exact (passed m).sound (clocked m)
  | refinEdge => exact refEdge_listsSound hs
  | windowClose w p =>
    rw [closeRefWindow_eq w p s, closeWindow_eq]
    refine State.keepsLists.sound ⟨rfl, rfl, .inr ?_, ?_, fun _ => List.Sublist.refl _⟩ (clocked (after w.mark w.half))
    · simp
    · simp
  | pulse e p h hin =>
    refine firePulse_listsSound e (clocked p.time) ?_
    have htp : (waitUntil p.time s).tp = s.tp := by simp
    rw [htp]
    exact earliestPulse_mem h
  | pulseEnd e t => exact (mapEye_keepsLists e _ _).sound (clocked _)
  | saveComplete => exact (keepsLists_of_eq (by simp) (by simp) (by simp) (by simp)).sound hs
  | loadComplete => exact (keepsLists_of_eq (by simp) (by simp) (by simp) (by simp)).sound hs
  | pairStart early => exact (keepsLists_of_eq (by simp) (by simp) (by simp) (by simp)).sound hs
  | pairEnd n => exact (keepsLists_of_eq (by simp) (by simp) (by simp) (by simp)).sound hs
  | reset _ k => exact enforceReset_listsSound k s
  | release k => exact endReset_listsSound k hs

/-- Settles O56: every move keeps the window and the lists sound, and a tick touches neither. -/
theorem windowAndListsStaySound : Obligations.WindowAndListsStaySound := fun _ _ hs h =>
  step_keeps (fun _ _ h => (keepsLists_of_eq rfl rfl rfl rfl).sound h)
    (fun _ h => (keepsLists_of_eq (by simp) (by simp) (by simp) (by simp)).sound h) (fun _ _ _ => Move.listsSound) hs h

end Sys2Proof.Machine
end

section
/-! PROOFS. The reset state, value by value and by every invariant (O60). -/

namespace Sys2Proof.Machine

theorem reset_eye (e : Eye) : State.reset.eye e = .atReset false false [] := by cases e <;> rfl

theorem reset_eyesSound : State.reset.eyesSound :=
  ⟨fun hheld => (by cases hheld), RigPort.sound_of_txn rfl, fun e => by rw [reset_eye]; exact EyePort.atReset_sound _ _ _⟩

theorem reset_pulsesSound : State.reset.pulsesSound :=
  ⟨fun _ => ⟨rfl, rfl⟩, fun _ h => (by cases h), fun _ h => (by cases h), fun e _ => by cases e <;> exact ⟨rfl, rfl⟩⟩

theorem reset_listsSound : State.reset.listsSound := atReset_listsSound rfl rfl rfl fun e => by cases e <;> rfl

theorem reset_queueSound : State.reset.queueSound :=
  ⟨Nat.zero_le 64, fun _ h => (by cases h), fun _ _ h => (by cases h), fun _ h => (by cases h)⟩

theorem reset_storeSound : State.reset.storeSound :=
  atReset_storeSound (nv := List.replicate 8 (.image emptyImage)) rfl rfl fun e => by cases e <;> rfl

theorem reset_settingsInRange : State.reset.settingsInRange :=
  atReset_inRange (nv := List.replicate 8 (.image emptyImage)) rfl rfl (fun e => by cases e <;> rfl) rfl rfl rfl

/-- Settles O60: the reset values by evaluation, the invariants each by its lemma. -/
theorem resetStateIsSound : Obligations.ResetStateIsSound := by
  rintro s rfl
  have hports : ∀ e, (State.reset.eye e).sdoHigh = false ∧ (State.reset.eye e).trigHigh = false := fun e => by
    rw [reset_eye]
    exact ⟨rfl, rfl⟩
  have hnotices : ∀ n, hasNotice State.reset.rcp.notices n = decide (n = .resetSeen) := fun n => by cases n <;> decide
  exact ⟨rfl, rfl, fun e => reset_eye e, rfl, rfl, rfl, rfl, rfl, rfl, rfl, rfl, rfl, rfl, rfl, rfl, rfl, rfl, hnotices, rfl,
    rfl, rfl, rfl, rfl, rfl, rfl, rfl, rfl, hports, reset_eyesSound, reset_pulsesSound, reset_listsSound, reset_queueSound,
    reset_storeSound, reset_settingsInRange⟩

end Sys2Proof.Machine
end

section
/-! PROOFS. Retirement and ageing, the records and the window as a whole (O53). -/

namespace Sys2Proof.Machine

theorem EyePort.takeLost_eq (p : EyePort) : p.takeLost = p.lostTaken := rfl

/-- With no complete slot at the front, retirement does nothing. -/
theorem retire_of_none {s : State} (h : s.pe.window.takeWhile PairSlot.complete = []) : retire s = s := by
  rw [retire]
  obtain ⟨_, _, _, _, _, _, _, ⟨window, _⟩, _, _, _, _⟩ := s
  cases window with
  | nil => rfl
  | cons slot rest =>
    rw [List.takeWhile_cons] at h
    split at h
    · cases h
    · next hopen =>
      rw [retireFrom, if_neg hopen]
      rfl

/-- A record that finds room is appended as it is, but for PRECEDED_BY_LOSS (R153, R154). -/
theorem offer_queue {r : PairRecord} {s : State} (h : s.pq.queue.length < 64) :
    (offer r s).pq.queue = s.pq.queue ++ [acceptRecord s.pq.precededByLoss r] := by
  rw [offer, if_pos (show s.pq.queue.length < Config.queueDepth from h)]
  rfl

theorem retireSlot_queue {slot : PairSlot} {s : State} (h : s.pq.queue.length < 64) :
    (retireSlot slot s).pq.queue =
      s.pq.queue ++ [acceptRecord s.pq.precededByLoss (slot.record (s.eyes.map EyePort.lost))] := offer_queue h

/-- The records of the slots that retire, in mark order, the first with the lost-report counts (R147, R150, R155). -/
theorem retireFrom_queue (l : List PairSlot) (s : State)
    (hroom : s.pq.queue.length + (l.takeWhile PairSlot.complete).length ≤ 64) :
    ∃ added, (retireFrom l s).pq.queue = s.pq.queue ++ added ∧
      added.map (fun q => { q.record with precededByLoss := false }) =
        (l.takeWhile PairSlot.complete).mapIdx fun i slot =>
          slot.record (if i = 0 then s.eyes.map EyePort.lost else ⟨0, 0⟩) := by
  induction l generalizing s with
  | nil => exact ⟨[], (List.append_nil _).symm, rfl⟩
  | cons slot rest ih =>
    rw [retireFrom]
    rw [List.takeWhile_cons] at *
    split
    · next hcomplete =>
      rw [if_pos hcomplete] at hroom
      rw [List.length_cons] at hroom
      have hqueue := retireSlot_queue (slot := slot) (s := s) (by omega)
      have hlost : (retireSlot slot s).eyes.map EyePort.lost = ⟨0, 0⟩ := PerEye_ext fun e => by
        rw [PerEye_get_map]
        refine (congrArg EyePort.lost (retireSlot_eye slot s e)).trans ?_
        cases e <;> rfl
      obtain ⟨added, hadded, hrecords⟩ := ih (retireSlot slot s) (by rw [hqueue, List.length_append]; simp; omega)
      refine ⟨acceptRecord s.pq.precededByLoss (slot.record (s.eyes.map EyePort.lost)) :: added, ?_, ?_⟩
      · rw [hadded, hqueue, List.append_assoc]
        rfl
      · rw [List.map_cons, hrecords, List.mapIdx_cons, hlost]
        simp only [ite_self, Nat.add_eq_zero_iff, Nat.one_ne_zero, and_false, if_false, if_true]
        rfl
    · exact ⟨[], (List.append_nil _).symm, rfl⟩

theorem take_takeWhile (p : PairSlot → Bool) (l : List PairSlot) :
    (l.takeWhile p).length ≤ l.length ∧ l.take (l.takeWhile p).length = l.takeWhile p ∧
      l.drop (l.takeWhile p).length = l.dropWhile p := by
  have hsplit := List.takeWhile_append_dropWhile (p := p) (l := l)
  refine ⟨List.IsPrefix.length_le ⟨_, hsplit⟩, ?_, ?_⟩
  · exact (congrArg (List.take _) hsplit.symm).trans (List.take_left' rfl)
  · exact (congrArg (List.drop _) hsplit.symm).trans (List.drop_left' rfl)

theorem dropWhile_head (p : PairSlot → Bool) (l : List PairSlot) : ∀ slot ∈ (l.dropWhile p).head?, p slot = false := by
  intro slot hslot
  cases h : l.dropWhile p with
  | nil =>
    rw [h] at hslot
    cases hslot
  | cons first rest =>
    rw [h] at hslot
    obtain rfl := Option.some.inj hslot
    have hhead := List.head_dropWhile_not (l := l) p (by rw [h]; exact List.cons_ne_nil _ _)
    simpa only [h, List.head_cons] using hhead

/-- The slots that retire from a window, counted from the front (R147). -/
theorem retire_counted (s : State) : ∃ n, n = (s.pe.window.takeWhile PairSlot.complete).length ∧ n ≤ s.pe.window.length ∧
    (retire s).pe.window = s.pe.window.drop n ∧ (∀ slot ∈ s.pe.window.take n, slot.complete = true) ∧
    (∀ slot ∈ (s.pe.window.drop n).head?, slot.complete = false) := by
  obtain ⟨hlen, htake, hdrop⟩ := take_takeWhile PairSlot.complete s.pe.window
  refine ⟨_, rfl, hlen, ?_, ?_, ?_⟩
  · rw [hdrop, retire, retireFrom_window]
  · rw [htake]
    exact fun slot hslot => List.mem_takeWhile_imp hslot
  · rw [hdrop]
    exact dropWhile_head _ _

/-! ## Ageing -/

/-- One slot aged at a mark, and timed out where it reaches the depth (R132, R142). -/
theorem aged_slot (depth : Nat) (slot : PairSlot) :
    PairSlot.timeOut depth { slot with age := slot.age + 1 } = { slot with
      age := slot.age + 1
      parts := if slot.age + 1 < depth then slot.parts else slot.parts.map fun part =>
        if part.state = .triggerPending ∨ part.state = .awaited then { part with state := .missing } else part } := by
  have hpart : ∀ p : EyePart, (if p.state = .triggerPending ∨ p.state = .awaited then { p with state := .missing } else p) =
      p.timeOut := fun p => by
    unfold EyePart.timeOut
    cases hp : p.state <;> simp [PartState.final]
  simp only [hpart]
  by_cases hlt : slot.age + 1 < depth
  · rw [if_pos hlt, PairSlot.timeOut, if_neg]
    simp only [PairSlot.timedOut, Bool.and_eq_true, decide_eq_true_eq, not_and]
    exact fun hle => absurd hlt (Nat.not_lt.2 hle)
  · rw [if_neg hlt, PairSlot.timeOut]
    split
    · rfl
    · next hstays =>
      have hcomplete : slot.complete = true := by
        by_contra hopen
        refine hstays ((Bool.and_eq_true _ _).mpr ⟨decide_eq_true (Nat.le_of_not_lt hlt), ?_⟩)
        rw [Bool.not_eq_true']
        exact Bool.eq_false_of_not_eq_true hopen
      have hsame : slot.parts.map EyePart.timeOut = slot.parts := PerEye_ext fun e => by
        rw [PerEye_get_map, EyePart.timeOut, if_pos (slot.complete_final hcomplete e)]
      rw [hsame]

theorem forall₂_map {α β : Type} {R : α → β → Prop} {f : α → β} (h : ∀ a, R a (f a)) (l : List α) :
    List.Forall₂ R l (l.map f) := by
  rw [List.forall₂_map_right_iff, List.forall₂_same]
  exact fun a _ => h a

theorem agedWindow_slots (depth : Nat) (l : List PairSlot) :
    List.Forall₂ (fun old new => new = { old with
      age := old.age + 1
      parts := if old.age + 1 < depth then old.parts else old.parts.map fun part =>
        if part.state = .triggerPending ∨ part.state = .awaited then { part with state := .missing } else part })
      l (agedWindow depth l) :=
  forall₂_map (f := fun p => PairSlot.timeOut depth { p with age := p.age + 1 }) (aged_slot depth) l

/-- In a sound window the slot that times out is the front one, which then retires (R142). -/
theorem timingOut_retires {s : State} (h : s.listsSound) {slot : PairSlot}
    (hslot : slot ∈ timingOut s.ae.frame.depth s.pe.window) :
    ∃ front ∈ (agedWindow s.ae.frame.depth s.pe.window).takeWhile PairSlot.complete, front.mark = slot.mark := by
  obtain ⟨-, -, hdecreasing, hbound, -⟩ := (windowSound_iff s).1 h.1
  obtain ⟨hmem, hout⟩ := List.mem_filter.1 hslot
  obtain ⟨old, hold, rfl⟩ := List.mem_map.1 hmem
  have hage : s.ae.frame.depth ≤ old.age + 1 := of_decide_eq_true ((Bool.and_eq_true _ _).mp hout).1
  generalize s.ae.frame.depth = depth at *
  cases hwindow : s.pe.window with
  | nil =>
    rw [hwindow] at hold
    cases hold
  | cons first rest =>
    rw [hwindow] at hold hdecreasing hbound
    rw [List.map_cons, List.pairwise_cons] at hdecreasing
    rw [List.map_cons] at hbound
    rcases List.mem_cons.1 hold with rfl | hrest
    · refine ⟨PairSlot.timeOut depth { old with age := old.age + 1 }, ?_, (timeOut_age depth _).2⟩
      rw [agedWindow, List.map_cons, List.takeWhile_cons, if_pos (timeOut_complete hage)]
      exact List.mem_cons_self ..
    · have hlt := hdecreasing.1 _ (List.mem_map_of_mem hrest)
      have hfirst := hbound _ (List.mem_cons_self ..)
      omega

/-- Settles O53: retirement by the complete slots at the front, and ageing by the slot that reaches the depth. -/
theorem retirementInMarkOrder : Obligations.RetirementInMarkOrder := by
  refine ⟨fun s hs => ?_, fun s => ?_⟩
  · obtain ⟨hlen, htake, hdrop⟩ := take_takeWhile PairSlot.complete (agedWindow s.ae.frame.depth s.pe.window)
    have hfree : ∀ m, (freeOf (timingOut s.ae.frame.depth s.pe.window) m &&
        freeOf ((agedWindow s.ae.frame.depth s.pe.window).takeWhile PairSlot.complete) m) = true ↔
        ∀ slot ∈ (agedWindow s.ae.frame.depth s.pe.window).takeWhile PairSlot.complete, slot.mark ≠ m := fun m => by
      rw [Bool.and_eq_true, freeOf_iff, freeOf_iff]
      refine ⟨fun h => h.2, fun h => ⟨fun slot hslot heq => ?_, h⟩⟩
      obtain ⟨front, hfront, hmark⟩ := timingOut_retires hs hslot
      exact h front hfront (hmark.trans heq)
    obtain ⟨-, -, hdecreasing, hbound, -⟩ := (windowSound_iff s).1 hs.1
    refine ⟨((agedWindow s.ae.frame.depth s.pe.window).takeWhile PairSlot.complete).length,
      agedWindow s.ae.frame.depth s.pe.window, agedWindow_slots _ _, hlen, ?_, ?_, ?_,
      ageWindow_age_lt hdecreasing (by rwa [List.forall_mem_map] at hbound), fun e p => ?_, fun e x => ?_, fun hpos e => ?_,
      fun hzero => ?_⟩
    · rw [hdrop, ageWindow_window]
    · rw [htake]
      exact fun slot hslot => List.mem_takeWhile_imp hslot
    · rw [hdrop]
      exact dropWhile_head _ _
    · rw [htake, ageWindow_pulses, List.mem_filter, hfree]
    · rw [htake, ageWindow_triggers, List.mem_filter, hfree]
    · rw [ageWindow_port, if_neg (List.ne_nil_of_length_pos hpos)]
      rfl
    · rw [ageWindow, List.map_map, retire_of_none (List.eq_nil_of_length_eq_zero hzero)]
      simp
  · obtain ⟨n, hn, hle, hwindow, hcomplete, hhead⟩ := retire_counted s
    obtain ⟨-, htake, -⟩ := take_takeWhile PairSlot.complete s.pe.window
    refine ⟨n, hle, hwindow, hcomplete, hhead, fun hzero => ?_, fun hpos e => ?_, fun hroom => ?_⟩
    · exact retire_of_none (List.eq_nil_of_length_eq_zero (hn.symm.trans hzero))
    · rw [retire, retireFrom_port, if_neg (List.ne_nil_of_length_pos (hn ▸ hpos))]
      rfl
    · rw [hn, htake]
      exact retireFrom_queue s.pe.window s (by rw [← hn]; exact hroom)

end Sys2Proof.Machine
end

section
/-! PROOFS. A FRAME is matched by its trigger number, and a plan completes (O51, O45). -/

namespace Sys2Proof.Machine

/-! ## Frames -/

theorem exec_frameTaken {s : State} {e : Eye} {f : RawFrame} (h : (s.eye e).slot = some (.frame f)) :
    exec (.frameTaken e) s = .next (matchFrame e f (emptySlot e s)) := by
  simp only [exec, execFrameTaken, h]

theorem State.derive_congr {s t : State} (hae : t.ae = s.ae) (hlts : t.lts = s.lts) (p : PairSlot) : t.derive p = s.derive p := by
  unfold State.derive State.slotLens State.boundTable
  rw [hae, hlts]

/-- The slot of the entry with its part reported, and with its derived values where that completes it (R137, R138). -/
theorem matchSlot_eq {s u : State} (hae : u.ae = s.ae) (hlts : u.lts = s.lts) (e : Eye) (f : RawFrame) (old : PairSlot) :
    ∃ part matched,
      part = { old.parts.get e with
        state := .reported
        report := some ⟨f.echo, f.delay.toNat, f.status, frameCounts f⟩
        stale := decide (f.echo ≠ BitVec.ofNat 16 old.mark.toNat) } ∧
      matched = { old with parts := old.parts.set e part } ∧
      u.matchSlot e f old = if matched.complete then s.derive matched else matched := by
  have hecho : old.mark.setWidth 16 = BitVec.ofNat 16 old.mark.toNat := BitVec.eq_of_toNat_eq (by simp)
  refine ⟨_, _, rfl, rfl, ?_⟩
  rw [← hecho, ← State.derive_congr hae hlts]
  rfl

/-- Settles O51: no entry and the report is lost; the first entry with the number, and its slot is reported. -/
theorem framesMatched : Obligations.FramesMatched := by
  intro s e f hslot
  rw [exec_frameTaken hslot]
  obtain ⟨u, hu⟩ : ∃ u, u = emptySlot e s := ⟨_, rfl⟩
  have hpe : u.pe = s.pe := by rw [hu]; rfl
  refine ⟨fun hnone => ?_, fun before rest entry hsplit htrigger hbefore => ?_⟩
  · have hfind : ((emptySlot e s).pe.triggers.get e).find? (fun t => t.trigger == f.trigger) = none := by
      rw [List.find?_eq_none]
      exact fun x hx heq => hnone x hx (beq_iff_eq.1 heq)
    rw [matchFrame, hfind]
    exact congrArg Host.Outcome.next (countLost_emptySlot e s)
  · have hfind : (u.pe.triggers.get e).find? (fun t => t.trigger == f.trigger) = some entry := by
      rw [hpe, hsplit, List.find?_append, List.find?_eq_none.2 fun x hx heq => hbefore x hx (beq_iff_eq.1 heq)]
      simp [htrigger]
    have hnotin : entry ∉ before := fun hmem => hbefore entry hmem htrigger
    obtain ⟨v, hv⟩ : ∃ v, v = u.mapPe fun p => { p with triggers := p.triggers.set e ((p.triggers.get e).erase entry) } :=
      ⟨_, rfl⟩
    obtain ⟨x, hx⟩ : ∃ x, x = mapSlotOf entry.mark (v.matchSlot e f) v := ⟨_, rfl⟩
    have hmatched : matchFrame e f u = retire x := by
      rw [matchFrame, hfind, hx, hv]
    have hvae : v.ae = s.ae := by rw [hv, hu]; rfl
    have hvlts : v.lts = s.lts := by rw [hv, hu]; rfl
    have hvwindow : v.pe.window = s.pe.window := by rw [hv, hu]; rfl
    have htriggers : x.pe.triggers.get e = before ++ rest := by
      have herase : x.pe.triggers.get e = (s.pe.triggers.get e).erase entry := by
        rw [hx, hv, hu]
        exact PerEye_get_set_same _ _ _
      rw [herase, hsplit, List.erase_append_right _ hnotin, List.erase_cons_head]
    have htp : x.tp = s.tp := by rw [hx, hv, hu]; rfl
    have heye : (x.eye e).slot = none := by
      have hport : x.eye e = (emptySlot e s).eye e := by rw [hx, hv, hu]; rfl
      rw [hport, emptySlot, State.mapEye_eye, if_pos rfl]
    obtain ⟨hlen, htake, hdrop⟩ := take_takeWhile PairSlot.complete x.pe.window
    rw [← hu, hmatched]
    refine ⟨retire x, rfl, ?_, ?_, ?_, ?_, ?_, ?_, ?_, ?_, (x.pe.window.takeWhile PairSlot.complete).length, x.pe.window, ?_,
      ?_, hlen, ?_, ?_, fun t => ?_⟩
    · rw [retire, retireFrom_port]
      split
      · exact heye
      · exact heye
    · simp [hx, hv, hu]
    · simp [hx, hv, hu]
    · simp [hx, hv, hu]
    · simp [hx, hv, hu]
    · simp [hx, hv, hu]
    · rw [retire, retireFrom_tp, htp]
    · rw [retire, retireFrom_tp, htp]
    · rw [hx]
      refine (hvwindow ▸ forall₂_map (R := fun old new => _) (fun old => ?_) v.pe.window)
      split
      · exact matchSlot_eq hvae hvlts e f old
      · rfl
    · rw [hdrop, retire, retireFrom_window]
    · rw [htake]
      exact fun slot hmem => List.mem_takeWhile_imp hmem
    · rw [retire, retireFrom_window]
      exact dropWhile_head _ _
    · rw [htake, retire, retireFrom_triggers, htriggers, List.mem_filter, freeOf_iff]

/-! ## The completion of a plan -/

/-- Serving an eye: RUN in its buffer, and its new previous targets unless they were cleared since the start (R70, R120). -/
theorem serveEye_eq (p : Plan) (e : Eye) (s : State) :
    serveEye p e s = { s with
      eyes := if p.serves e then s.eyes.set e ((s.eye e).writeDirective (p.run e)) else s.eyes
      lme := { s.lme with
        previous := if p.serves e && !s.lme.clearMark.get e then
            s.lme.previous.set e (newPrevious (s.lme.previous.get e) (p.targets.get e))
          else s.lme.previous } } := by
  unfold serveEye
  by_cases hserves : p.serves e = true
  · by_cases hmark : s.lme.clearMark.get e = true
    · have hmark' : (writeDirective e (p.run e) s).lme.clearMark.get e = true := hmark
      rw [if_pos hserves, hserves]
      dsimp only
      rw [if_pos hmark', hmark]
      cases e <;> rfl
    · have hmark' : ¬ (writeDirective e (p.run e) s).lme.clearMark.get e = true := hmark
      rw [if_pos hserves, hserves]
      dsimp only
      rw [if_neg hmark', Bool.eq_false_of_not_eq_true hmark]
      cases e <;> rfl
  · rw [if_neg hserves, Bool.eq_false_of_not_eq_true hserves]
    rfl

theorem serveEye_eye (p : Plan) (e e' : Eye) (s : State) :
    (serveEye p e s).eye e' = if e' = e ∧ p.serves e = true then (s.eye e).writeDirective (p.run e) else s.eye e' := by
  rw [serveEye_eq]
  by_cases hserves : p.serves e = true
  · simp only [hserves, if_true, and_true]
    exact PerEye_get_set _ _ _ _
  · simp only [hserves, Bool.false_eq_true, and_false, if_false]
    rfl

theorem serveEye_previous (p : Plan) (e e' : Eye) (s : State) :
    (serveEye p e s).lme.previous.get e' =
      if e' = e ∧ p.serves e = true ∧ s.lme.clearMark.get e = false then
        newPrevious (s.lme.previous.get e) (p.targets.get e)
      else s.lme.previous.get e' := by
  rw [serveEye_eq]
  dsimp only
  by_cases hserves : p.serves e = true
  · cases hmark : s.lme.clearMark.get e with
    | true => simp [hserves]
    | false => simp [hserves, PerEye_get_set]
  · simp [hserves]

theorem completePlan_some {s : State} {p : PlanInProgress} (h : s.tp.inProgress = some p) :
    completePlan s = (serveEye p.plan .right (serveEye p.plan .left s)).mapTp fun t =>
      { t with inProgress := none, prepared := some p.plan } := by
  rw [completePlan, h]

theorem completePlan_fields {s : State} {p : PlanInProgress} (h : s.tp.inProgress = some p) :
    completePlan s = { s with
      eyes := (completePlan s).eyes, lme := { s.lme with previous := (completePlan s).lme.previous }
      tp := { s.tp with inProgress := none, prepared := some p.plan } } := by
  rw [completePlan_some h, serveEye_eq p.plan .right, serveEye_eq p.plan .left]
  rfl

theorem completePlan_eye {s : State} {p : PlanInProgress} (h : s.tp.inProgress = some p) (e : Eye) :
    (completePlan s).eye e = if p.plan.serves e = true then (s.eye e).writeDirective (p.plan.run e) else s.eye e := by
  rw [completePlan_some h, State.mapTp_eye, serveEye_eye, serveEye_eye, serveEye_eye]
  cases e <;> simp

theorem completePlan_previous {s : State} {p : PlanInProgress} (h : s.tp.inProgress = some p) (e : Eye) :
    (completePlan s).lme.previous.get e =
      if p.plan.serves e = true ∧ s.lme.clearMark.get e = false then
        newPrevious (s.lme.previous.get e) (p.plan.targets.get e)
      else s.lme.previous.get e := by
  have hmark : (serveEye p.plan .left s).lme.clearMark = s.lme.clearMark := by rw [serveEye_eq]
  rw [completePlan_some h, State.mapTp_lme, serveEye_previous, serveEye_previous, serveEye_previous, hmark]
  cases e <;> simp <;> congr

theorem PerAxis_any_iff {α : Type} (t : PerAxis α) (g : α → Bool) : t.any g = true ↔ ∃ a, g (t.get a) = true := by
  simp only [PerAxis.any, Bool.or_eq_true]
  refine ⟨?_, fun ⟨a, ha⟩ => ?_⟩
  · rintro ((h | h) | h)
    · exact ⟨.focus, h⟩
    · exact ⟨.iris, h⟩
    · exact ⟨.zoom, h⟩
  · cases a
    · exact .inl (.inl ha)
    · exact .inl (.inr ha)
    · exact .inr ha

/-- The targets and flags of a plan, axis by axis (R106, R117, R122). -/
theorem plan_lens (p : PlanInProgress) (e : Eye) (axis : Axis → Option AxisTarget)
    (haxis : ∀ a, axis a =
      if p.included.get e then
        axisTarget
          (match (p.snapshot.lens.get e).table with | some table => table.axes.get a | none => none)
          ((p.snapshot.lens.get e).motorised.get a) (p.snapshot.demand.get a) ((p.snapshot.lens.get e).previous.get a)
      else none) :
    (∀ a, (p.plan.targets.get e).get a = (axis a).map AxisTarget.target) ∧
      ((p.plan.flags.get e).uncalibrated = true ↔ p.included.get e = true ∧ (p.snapshot.lens.get e).table = none) ∧
      ((p.plan.flags.get e).lag = true ↔ ∃ a x, axis a = some x ∧ x.lagged = true) ∧
      ((p.plan.flags.get e).demandClamped = true ↔ ∃ a x, axis a = some x ∧ x.clamped = true) := by
  have htargets : ∀ a, (p.snapshot.lensTargets p.included e).get a = axis a := fun a => by
    rw [haxis, Snapshot.lensTargets]
    split
    · rw [show (eyeTargets (p.snapshot.lens.get e) p.snapshot.demand).get a = axisTarget
        ((p.snapshot.lens.get e).table.bind fun t => t.axes.get a) ((p.snapshot.lens.get e).motorised.get a)
        (p.snapshot.demand.get a) ((p.snapshot.lens.get e).previous.get a) by cases a <;> rfl]
      cases (p.snapshot.lens.get e).table <;> rfl
    · cases a <;> rfl
  have hflags : p.plan.flags.get e = p.snapshot.lensFlags p.included e := PerEye_get_of _ _
  have hany : ∀ g : AxisTarget → Bool, ((p.snapshot.lensTargets p.included e).any fun t => (t.map g).getD false) = true ↔
      ∃ a x, axis a = some x ∧ g x = true := fun g => by
    have hone : ∀ o : Option AxisTarget, (o.map g).getD false = true ↔ ∃ x, o = some x ∧ g x = true := fun o => by
      cases o <;> simp
    rw [PerAxis_any_iff]
    simp only [htargets, hone]
  refine ⟨fun a => ?_, ?_⟩
  · rw [← htargets]
    cases e <;> cases a <;> rfl
  · rw [hflags, Snapshot.lensFlags]
    by_cases hincluded : p.included.get e = true
    · rw [if_pos hincluded]
      exact ⟨by simp [eyeFlags, hincluded], hany AxisTarget.lagged, hany AxisTarget.clamped⟩
    · have hnone : ∀ a, axis a = none := fun a => by rw [haxis, if_neg hincluded]
      rw [if_neg hincluded]
      simp [hnone, hincluded]

/-- Settles O45: the plan is served to each eye it includes, with the targets of its snapshot. -/
theorem plansComplete : Obligations.PlansComplete := by
  refine ⟨fun s h => ?_, fun s p h => ?_⟩
  · refine congrArg Host.Outcome.next ?_
    rw [completePlan, h]
  · refine ⟨completePlan s, rfl, completePlan_fields h, fun e axis haxis => ?_, fun e => ⟨fun hserved => ?_, fun hout => ?_⟩⟩
    · obtain ⟨htargets, hflags⟩ := plan_lens p e axis haxis
      refine ⟨fun a => (htargets a).trans ?_, hflags⟩
      cases axis a <;> rfl
    · have hserves : p.plan.serves e = true := by
        rw [Plan.serves, Bool.and_eq_true, Bool.not_eq_true']
        exact hserved
      refine ⟨?_, fun hmark => ?_, fun hmark a => ?_⟩
      · rw [completePlan_eye h, if_pos hserves]
        have hoffset : p.plan.offset.get e = p.snapshot.offset p.included e := PerEye_get_of _ _
        rw [Plan.run, hoffset]
        rfl
      · rw [completePlan_previous h, if_neg (by simp [hmark])]
      · rw [completePlan_previous h, if_pos ⟨hserves, hmark⟩]
        have hget : ∀ old targets : PerAxis (Option Nat), (newPrevious old targets).get a =
            (targets.get a).orElse fun _ => old.get a := fun _ _ => by cases a <;> rfl
        rw [hget]
        cases (p.plan.targets.get e).get a <;> rfl
    · have hserves : ¬ p.plan.serves e = true := by
        rw [Plan.serves, Bool.and_eq_true, Bool.not_eq_true']
        exact hout
      rw [completePlan_eye h, completePlan_previous h, if_neg hserves, if_neg fun h => hserves h.1]
      exact ⟨rfl, rfl⟩

end Sys2Proof.Machine
end

section
/-! PROOFS. The start of a plan, and the requests that start and end a take (O17, O21). -/

namespace Sys2Proof.Machine

/-! ## The start of a plan -/

/-- A plan that begins with the held changes applied and the marks cleared (R68, R69). -/
def planBegun (a : Agreement) (x : State) : State :=
  (x.mapTp fun t => { t with inProgress := some ⟨x.snapshot a, x.includedEyes, .both false⟩ }).mapCg fun c =>
    c.beginPlan a x.timebase

theorem planStart_some {u : State} {a : Agreement} (h : u.ae.agreement = some a) :
    planStart u = planBegun a ((applyPendingOps u).mapLme fun l => { l with clearMark := .both false }) := by
  have hx : ((applyPendingOps u).mapLme fun l => { l with clearMark := .both false }).ae.agreement = some a := by simp [h]
  unfold planStart
  generalize (applyPendingOps u).mapLme (fun l => { l with clearMark := .both false }) = x at hx
  dsimp only
  rw [hx]
  rfl

theorem planStart_none {u : State} (h : u.ae.agreement = none) :
    planStart u = (applyPendingOps u).mapLme fun l => { l with clearMark := .both false } := by
  have hx : ((applyPendingOps u).mapLme fun l => { l with clearMark := .both false }).ae.agreement = none := by simp [h]
  unfold planStart
  generalize (applyPendingOps u).mapLme (fun l => { l with clearMark := .both false }) = x at hx
  dsimp only
  rw [hx]

/-- What the snapshot takes with source FREE: the rate of the step, its period, and the mark one period ahead (R11, R12). -/
theorem planCadence_of_free {c : Cadence} {a : Agreement} (h : c.source = .free) {rate : Nat}
    (hrate : rate = min (max c.stepRate 1000) a.ceiling) :
    limit Config.minRate a.ceiling c.stepRate = rate ∧
      (planCadence c a).period = max ((2 * 10 ^ 11 + rate) / (2 * rate)) a.floor ∧
      (planCadence c a).rateClamped = decide (a.ceiling < c.stepRate) ∧
      (planCadence c a).ahead = (planCadence c a).period := by
  have hlimit : limit Config.minRate a.ceiling c.stepRate = rate := by rw [hrate]; rfl
  rw [planCadence_free a h, hlimit]
  refine ⟨rfl, ?_, rfl, rfl⟩
  rw [← perTick_eq]
  rfl

theorem beganPlan_planBegun {a : Agreement} {x : State} (hrig : x.cg.rig = .rolling) (hmark : x.lme.clearMark = ⟨false, false⟩) :
    beganPlan a x (planBegun a x) ⟨x.snapshot a, x.includedEyes, .both false⟩ := by
  have hcg : (planBegun a x).cg = x.cg.beginPlan a x.timebase := rfl
  refine ⟨rfl, rfl, hmark, fun e => ?_, ?_, rfl, rfl, rfl, rfl, rfl, rfl, rfl, fun e => ⟨?_, ?_, ?_⟩,
    fun hsource rate hrate => ?_, fun hsource => ⟨fun period hperiod => ?_, ?_, ?_, ?_⟩, ?_⟩
  · change x.includedEyes.get e = true ↔ (x.eye e).state = .running ∨ (x.eye e).state = .agreed
    simp only [State.includedEyes, PerEye_get_map, hrig, decide_true, Bool.and_true, Bool.or_eq_true, decide_eq_true_eq]
    rfl
  · rw [hcg, beginPlan_eq]
    rfl
  · refine (PerEye_get_of _ e).trans ?_
    unfold SensorMode.readout
    cases a.reversed.get e <;> cases (a.mode.get e).reversed <;> rfl
  · exact PerEye_get_map _ _ _
  · refine (PerEye_get_of _ e).trans ?_
    unfold State.eyeLens State.boundTable
    change EyeLens.mk _ ((((x.eye e).caps).map Caps.axes).getD (.all false)) _ = EyeLens.mk _ _ (x.lme.previous.get e)
    congr 1
    · change _ = match x.lts.binding.get e with | some k => (x.lts.slot k).contents.map LensImage.table | none => none
      cases x.lts.binding.get e <;> rfl
    · change _ = match (x.eye e).caps with | some caps => caps.axes | none => ⟨false, false, false⟩
      cases (x.eye e).caps <;> rfl
  · obtain ⟨hlimit, hperiod, hclamped, hahead⟩ := planCadence_of_free hsource hrate
    have hexpected : (x.snapshot a).expected = x.timebase + BitVec.ofNat 48 (planCadence x.cg a).period := by
      rw [← hahead]
      rfl
    refine ⟨hperiod, hclamped, hexpected, ?_, ?_, ?_⟩ <;> rw [hcg, beginPlan_free a _ hsource]
    · exact hlimit
    · rfl
  · rw [show (x.snapshot a).period = (planCadence x.cg a).period from rfl,
      show (x.snapshot a).expected = x.timebase + BitVec.ofNat 48 (planCadence x.cg a).ahead from rfl,
      planCadence_ref a hsource, hperiod]
    exact ⟨rfl, rfl⟩
  · rw [show (x.snapshot a).rateClamped = (planCadence x.cg a).rateClamped from rfl, planCadence_ref a hsource]
  · rw [hcg, beginPlan_ref a _ hsource]
  · rw [hcg, beginPlan_ref a _ hsource]
  · rw [hcg]
    cases hsource : x.cg.source with
    | free =>
      rw [beginPlan_free a _ hsource]
      rfl
    | ref =>
      rw [beginPlan_ref a _ hsource]
      rfl

/-- A plan's start sees of the Cadence Generator before it the source, the rate, the ramp and the period. -/
theorem beganPlan_congr {a : Agreement} {s s' t : State} {p : PlanInProgress} (h : beganPlan a s t p)
    (hsource : s'.cg.source = s.cg.source) (htarget : s'.cg.targetRate = s.cg.targetRate)
    (hcurrent : s'.cg.currentRate = s.cg.currentRate) (hramp : s'.cg.ramp = s.cg.ramp)
    (hperiod : s'.cg.period = s.cg.period) : beganPlan a s' t p := by
  unfold beganPlan Cadence.stepRate Cadence.steppedRamp at *
  rw [hsource, htarget, hcurrent, hramp, hperiod]
  exact h

theorem applyPendingOps_fields (s : State) :
    applyPendingOps s = { s with lts := (applyPendingOps s).lts, lme := (applyPendingOps s).lme } :=
  State.eq_of_fields (by simp) (by simp) (fun e => by rw [applyPendingOps_eye]; rfl) (by simp) (by simp) rfl rfl (by simp) (by simp)
    (by simp) (by simp) (by simp)

/-- The state after a plan's start. -/
theorem planStart_fields {u : State} {a : Agreement} (h : u.ae.agreement = some a) :
    ∃ plan, planStart u = { u with
      cg := u.cg.beginPlan a u.timebase
      tp := { u.tp with inProgress := some plan }
      lts := (applyPendingOps u).lts
      lme := { (applyPendingOps u).lme with clearMark := ⟨false, false⟩ } } ∧
      plan.included = u.includedEyes ∧ (u.cg.rig = .rolling → beganPlan a u (planStart u) plan) := by
  obtain ⟨x, hx⟩ : ∃ x, x = (applyPendingOps u).mapLme fun l => { l with clearMark := .both false } := ⟨_, rfl⟩
  have hxu : x = { u with
      lts := (applyPendingOps u).lts, lme := { (applyPendingOps u).lme with clearMark := ⟨false, false⟩ } } := by
    rw [hx, applyPendingOps_fields]
    rfl
  have hcg : x.cg = u.cg := by rw [hxu]
  refine ⟨⟨x.snapshot a, x.includedEyes, .both false⟩, ?_, ?_, fun hrig => ?_⟩
  · rw [planStart_some h, ← hx, planBegun]
    generalize (⟨x.snapshot a, x.includedEyes, .both false⟩ : PlanInProgress) = plan
    rw [hxu]
    rfl
  · rw [hxu]
    rfl
  · rw [planStart_some h, ← hx]
    refine beganPlan_congr (s := x) (beganPlan_planBegun (by rw [hcg]; exact hrig) (by rw [hxu])) ?_ ?_ ?_ ?_ ?_ <;> rw [hcg]

/-! ## CUT -/

theorem stoppedTake_fields (s : State) :
    stoppedTake s = { s with
      cg := s.cg.drain, eyes := (stoppedTake s).eyes, tp := { s.tp with inProgress := none, prepared := none } } :=
  State.eq_of_fields (by simp) (by simp) (fun _ => rfl) (by simp) (by simp) (by simp) (by simp) (by simp) (by simp) (by simp)
    (by simp) (by simp)

/-- The state after entry into DRAINING (R6). -/
theorem enterDraining_fields (s : State) :
    enterDraining s = { s with
      cg := s.cg.drain, eyes := (enterDraining s).eyes, tp := { s.tp with inProgress := none, prepared := none }
      lts := (enterDraining s).lts, lme := (enterDraining s).lme } := by
  rw [enterDraining_eq, applyPendingOps_fields, stoppedTake_fields]

/-- Entry into DRAINING applies the held changes, and marks no clearing, as no plan is left (R102 to R104, R120). -/
theorem enterDraining_store (s : State) :
    (enterDraining s).lme.clearMark = s.lme.clearMark ∧ (∀ l ∈ (enterDraining s).lts.slots, l.pending = none) ∧
      (s.storeForm → heldApplied s (enterDraining s)) ∧
      ((∀ l ∈ s.lts.slots, l.pending = none) → (enterDraining s).lts = s.lts ∧ (enterDraining s).lme = s.lme) := by
  have hlts : (stoppedTake s).lts = s.lts := by simp
  have hlme : (stoppedTake s).lme = s.lme := by simp
  rw [enterDraining_eq]
  refine ⟨?_, applyPendingOps_pending _, fun h => ?_, fun h => ?_⟩
  · obtain ⟨hit, hcleared⟩ := applyPendingOps_lme (stoppedTake s)
    rw [hcleared, hlme, (stoppedTake_frame s).2.2.2.1]
    refine PerEye_ext fun e => (PerEye_get_of _ _).trans ?_
    simp
  · exact heldApplied_congr (heldApplied_applyPendingOps (h.congr hlts (stoppedTake_caps s))) hlts.symm
      (by rw [hlme]) rfl rfl fun _ => rfl
  · rw [applyPendingOps_of_none (by rw [hlts]; exact h)]
    exact ⟨hlts, hlme⟩

/-- Settles O21: outside ROLLING nothing; in ROLLING the rig drains. -/
theorem cutEndsTake : Obligations.CutEndsTake := by
  intro s pad hs
  obtain ⟨u, hu⟩ : ∃ u, u = s.rcpClosed (requestBits .cut pad) := ⟨_, rfl⟩
  have hcg : u.cg = s.cg := by rw [hu]; rfl
  have hexec : exec (.cut pad) s = .next (decideCut u) := by rw [hu]; exact exec_cut_serves pad s hs
  refine ⟨fun hrig => ?_, fun hrig => ?_⟩
  · rw [hexec, decideCut, if_neg (by rwa [hcg]), hu]
    exact congrArg Host.Outcome.next (answer_rcpClosed .cut pad .state s)
  · obtain ⟨hmark, hpending, happlied, hnone⟩ := enterDraining_store u
    have hfields := enterDraining_fields u
    have heye := enterDraining_eye u
    have hdone : exec (.cut pad) s = .next (answer 0x67 .done (enterDraining u)) := by
      rw [hexec, decideCut, if_pos (by rwa [hcg])]
    generalize enterDraining u = v at *
    have hults : u.lts = s.lts := by rw [hu]; rfl
    have hulme : u.lme = s.lme := by rw [hu]; rfl
    refine ⟨answer 0x67 .done v, hdone, ?_, fun e => ?_, hmark.trans (by rw [hulme]), hpending, fun h => ?_, fun h => ?_⟩
    · rw [hfields, hu]
      exact congrArg (fun t : State => { t with
        eyes := v.eyes, lts := v.lts, lme := v.lme
        cg := s.cg.drain, tp := { s.tp with inProgress := none, prepared := none } }) (answer_rcpClosed .cut pad .done s)
    · refine (heye e).trans ?_
      rw [EyePort.stopped_eq, hu]
      rfl
    · exact heldApplied_congr (happlied (h.form.congr hults fun e => by rw [hu]; rfl)) hults.symm
        (by rw [hulme]) rfl rfl fun _ => rfl
    · obtain ⟨hlts, hlme⟩ := hnone (by rw [hults]; exact h)
      exact ⟨hlts.trans hults, hlme.trans hulme⟩

/-! ## ROLL -/

theorem mayRoll_iff (s : State) : s.mayRoll = true ↔ s.rollAllowed := by
  have hstates : (∀ e, (s.eye e).state = .agreed) ↔ s.eyes.left.state = .agreed ∧ s.eyes.right.state = .agreed :=
    ⟨fun h => ⟨h .left, h .right⟩, fun h e => by cases e; exacts [h.1, h.2]⟩
  unfold State.mayRoll State.rollAllowed
  rw [hstates, Bool.and_eq_true, Bool.and_eq_true, Bool.and_eq_true, decide_eq_true_eq, decide_eq_true_eq, decide_eq_true_eq,
    and_assoc, and_assoc]
  refine and_congr Iff.rfl (and_assoc.symm.trans (and_congr Iff.rfl ?_))
  cases s.cg.source with
  | free => simp
  | ref =>
    cases s.cg.period with
    | none => simp
    | some p =>
      cases s.ae.agreement with
      | none => simp
      | some a =>
        simp only [Bool.and_eq_true, decide_eq_true_eq]
        simp [perTick_eq, and_assoc]

/-- The take's start up to its plan: ROLLING, with the last readouts and the previous targets cleared (R3, R67, R121). -/
def takeBegun (s : State) : State :=
  { s with
    cg := { s.cg with take := s.cg.take + 1, rig := .rolling, drainCount := 0, leadOwed := decide (s.cg.source = .ref) }
    tp := { s.tp with lastReadout := ⟨none, none⟩ }
    lme := { s.lme with
      previous := ⟨.all none, .all none⟩
      clearMark := if s.tp.inProgress.isSome then ⟨true, true⟩ else s.lme.clearMark } }

theorem startTake_eq (s : State) :
    startTake s = if s.cg.source = .free then planStart (takeBegun s) else takeBegun s := by
  have hbegun : clearPrevious .right (clearPrevious .left ((s.mapCg fun c =>
      { c with take := c.take + 1, rig := .rolling, drainCount := 0, leadOwed := decide (c.source = .ref) }).mapTp
        fun t => { t with lastReadout := .both none })) = takeBegun s := by
    unfold clearPrevious takeBegun
    cases h : s.tp.inProgress <;> simp [State.mapLme, State.mapTp, State.mapCg, h, PerEye.set, PerEye.both]
  unfold startTake
  dsimp only
  rw [hbegun]
  rfl

theorem cleared_previous {l : LensMatch} (h : l.previous = ⟨.all none, .all none⟩) (plan : Bool) (hit : Eye → Bool) :
    (l.clearedFor plan hit).previous = ⟨.all none, .all none⟩ :=
  PerEye_ext fun e => (PerEye_get_of _ _).trans (by rw [h]; cases e <;> simp)

/-- Settles O17: ROLL is refused, or starts the take and with source FREE its first plan. -/
theorem rollStartsTake : Obligations.RollStartsTake := by
  intro s pad hs
  obtain ⟨u, hu⟩ : ∃ u, u = s.rcpClosed (requestBits .roll pad) := ⟨_, rfl⟩
  have hexec : exec (.roll pad) s = .next (decideRoll u) := by rw [hu]; exact exec_roll_serves pad s hs
  have hallowed : u.mayRoll = true ↔ s.rollAllowed := (mayRoll_iff u).trans (by rw [hu]; rfl)
  have hsource : u.cg.source = s.cg.source := by rw [hu]; rfl
  refine ⟨fun hrefused => ?_, fun hroll href => ?_, fun hroll hfree a ha => ?_⟩
  · rw [hexec, decideRoll, if_neg (mt hallowed.1 hrefused), hu]
    exact congrArg Host.Outcome.next (answer_rcpClosed .roll pad .state s)
  · rw [hexec, decideRoll, if_pos (hallowed.2 hroll), startTake_eq, if_neg (by rw [hsource, href]; decide), takeBegun, hu]
    refine congrArg Host.Outcome.next ?_
    have hlead : decide ((s.rcpClosed (requestBits .roll pad)).cg.source = .ref) = true := decide_eq_true href
    rw [hlead]
    exact congrArg (fun t : State => { t with
      cg := { s.cg with take := s.cg.take + 1, rig := .rolling, drainCount := 0, leadOwed := true }
      tp := { s.tp with lastReadout := ⟨none, none⟩ }
      lme :=
        { s.lme with
          previous := ⟨.all none, .all none⟩
          clearMark := if s.tp.inProgress.isSome then ⟨true, true⟩ else s.lme.clearMark } }) (answer_rcpClosed .roll pad .done s)
  · obtain ⟨x, hx⟩ : ∃ x, x = takeBegun u := ⟨_, rfl⟩
    have hxcg : x.cg = { s.cg with take := s.cg.take + 1, rig := .rolling, drainCount := 0, leadOwed := false } := by
      rw [hx, takeBegun, hu]
      have hlead : decide ((s.rcpClosed (requestBits .roll pad)).cg.source = .ref) = false :=
        decide_eq_false (by change ¬ s.cg.source = .ref; rw [hfree]; decide)
      rw [hlead]
      rfl
    obtain ⟨plan, hfields, hincluded, hbegan⟩ := planStart_fields (u := x) (a := a) (by rw [hx, hu]; exact ha)
    obtain ⟨hit, hlme⟩ := applyPendingOps_lme x
    have hprevious : (planStart x).lme.previous = ⟨.all none, .all none⟩ := by
      rw [hfields, hlme]
      exact cleared_previous (l := x.lme) (by rw [hx]; rfl) x.tp.inProgress.isSome hit
    have hdemand : (applyPendingOps x).lme.demand = s.lme.demand := by
      rw [hlme, hx, hu]
      rfl
    have hcgt : (planStart x).cg = x.cg.beginPlan a x.timebase := by rw [hfields]
    refine ⟨answer 0x66 .done (planStart x), plan, ?_, ?_, ?_, ?_, hprevious, ?_, ?_, fun h => ?_⟩
    · rw [hexec, decideRoll, if_pos (hallowed.2 hroll), startTake_eq, if_pos (hsource.trans hfree), ← hx]
    · have hlmet : (planStart x).lme =
          { s.lme with previous := (planStart x).lme.previous, clearMark := (planStart x).lme.clearMark } := by
        have hd : (planStart x).lme.demand = s.lme.demand := by rw [hfields]; exact hdemand
        exact congrArg (fun d => LensMatch.mk d (planStart x).lme.previous (planStart x).lme.clearMark) hd
      refine State.eq_of_fields ?_ rfl (fun e => ?_) ?_ rfl rfl hlmet ?_ ?_ ?_ ?_ ?_
      case refine_6 =>
        rw [show (answer 0x66 .done (planStart x)).rcp = (answer 0x66 .done (s.rcpClosed (requestBits .roll pad))).rcp by
          rw [hfields, hx, hu]; rfl]
        have hrcp := congrArg State.rcp (answer_rcpClosed .roll pad .done s)
        exact hrcp
      all_goals
        rw [hfields, hx, hu]
        rfl
    · have hstep : (planStart x).cg = { x.cg with
          currentRate := (planStart x).cg.currentRate, ramp := (planStart x).cg.ramp
          planPeriod := (planStart x).cg.planPeriod, nextMark := (planStart x).cg.nextMark } := by
        rw [hcgt]
        exact beginPlan_eq _ _ _
      exact hstep.trans (by rw [hxcg]; rfl)
    · change (planStart x).tp = _
      rw [hfields, hx, hu]
      rfl
    · exact beganPlan_congr (hbegan (by rw [hxcg])) (by rw [hxcg]) (by rw [hxcg]) (by rw [hxcg]) (by rw [hxcg]) (by rw [hxcg])
    · rw [hincluded]
      have hxeyes : x.eyes = s.eyes := by rw [hx, hu]; rfl
      have hagreed : ∀ e, (s.eye e).state = .agreed := hroll.2.1
      refine PerEye_ext fun e => ?_
      rw [State.includedEyes, PerEye_get_map, hxeyes, show (s.eyes.get e).state = .agreed from hagreed e, hxcg]
      cases e <;> rfl
    · change (planStart x).lts = s.lts
      rw [hfields, applyPendingOps_of_none (by rw [hx, hu]; exact h), hx, hu]
      rfl

end Sys2Proof.Machine
end

section
/-! PROOFS. Setup reference, lead and drain marks (O23). -/

namespace Sys2Proof.Machine

/-! ## The passing of a mark -/

theorem passMark_eq (m : Time) (number : Option MarkNumber) (c : Cadence) :
    c.passMark m number = { c with
      nextMark := (c.passMark m number).nextMark, window := (c.passMark m number).window
      lock := (c.passMark m number).lock } := by
  unfold Cadence.passMark
  dsimp only
  (repeat' split) <;> rfl

theorem passMark_free {c : Cadence} (m : Time) (number : Option MarkNumber) (h : c.source = .free) :
    c.passMark m number = { c with nextMark := none } := by
  rw [Cadence.passMark, h]

theorem passMark_ref {c : Cadence} (m : Time) (number : Option MarkNumber) (h : c.source = .ref) :
    (c.passMark m number).lock = { c.lock with stepOwed := false } ∧
      ∀ w, c.window = some w →
        (w.mark = m → (c.passMark m number).nextMark = none ∧ ∀ period, c.period = some period →
          (c.passMark m number).window = some { w with event := some ⟨period, number⟩ }) ∧
        (w.mark ≠ m → (c.passMark m number).nextMark = some w.mark ∧ (c.passMark m number).window = some w) := by
  unfold Cadence.passMark
  rw [h]
  dsimp only
  cases hw : c.window with
  | none => exact ⟨rfl, fun w hw => by cases hw⟩
  | some w =>
    dsimp only
    by_cases hm : w.mark = m
    · rw [if_pos hm]
      refine ⟨rfl, fun w' hw' => ?_⟩
      obtain rfl := Option.some.inj hw'
      refine ⟨fun _ => ⟨rfl, fun period hp => ?_⟩, fun hne => absurd hm hne⟩
      rw [hp]
      rfl
    · rw [if_neg hm]
      refine ⟨rfl, fun w' hw' => ?_⟩
      obtain rfl := Option.some.inj hw'
      exact ⟨fun heq => absurd heq hm, fun _ => ⟨rfl, rfl⟩⟩

/-- A mark that passes leaves its event, whatever else its instant changes of the cadence (R18, R19, R22). -/
theorem markPassed_of {m : Time} {number : Option MarkNumber} {s t : State}
    (hlock : t.cg.lock = (s.cg.passMark m number).lock) (hwindow : t.cg.window = (s.cg.passMark m number).window)
    (hnext : s.cg.source = .ref → t.cg.nextMark = (s.cg.passMark m number).nextMark) : markPassed m number s t := by
  refine ⟨fun hfree => ?_, fun href => ?_⟩
  · rw [hlock, hwindow, passMark_free m number hfree]
    exact ⟨rfl, rfl⟩
  · rw [hlock, hwindow, hnext href]
    exact passMark_ref m number href

theorem passMark_source (m : Time) (number : Option MarkNumber) (c : Cadence) : (c.passMark m number).source = c.source := by
  rw [passMark_eq]

theorem dueMark_some {s : State} {k : MarkKind} {m : Time} (hheld : s.isHeld = false) (hkind : s.markKind = k)
    (hnext : s.cg.nextMark = some m) : s.dueMark k = some m := by
  rw [State.dueMark, if_neg (by simp [hheld, hkind]), hnext]

theorem waitUntil_frame (m : Time) (s : State) : (waitUntil m s).cg = s.cg ∧ (waitUntil m s).ae = s.ae ∧
    (waitUntil m s).tp = s.tp ∧ (waitUntil m s).lts = s.lts ∧ (waitUntil m s).lme = s.lme ∧ (waitUntil m s).pe = s.pe ∧
    (waitUntil m s).rcp = s.rcp := by
  simp

theorem waitUntil_port (m : Time) (s : State) (e : Eye) :
    ((waitUntil m s).eye e).state = (s.eye e).state ∧ ((waitUntil m s).eye e).caps = (s.eye e).caps ∧
      ((waitUntil m s).eye e).buffer = (s.eye e).buffer ∧ ((waitUntil m s).eye e).fresh = (s.eye e).fresh ∧
      ((waitUntil m s).eye e).trig = (s.eye e).trig := by
  rw [waitUntil_eye]
  simp

/-! ## The setup reference mark and the lead mark -/

theorem planStart_heldApplied {u : State} (h : u.storeForm) : heldApplied u (planStart u) := by
  refine heldApplied_congr (heldApplied_applyPendingOps h) rfl rfl (planStart_lts u) ?_ fun e => by simp
  cases ha : u.ae.agreement with
  | none => rw [planStart_none ha]; rfl
  | some a => rw [planStart_some ha]; rfl

theorem setupReferenceMark_passes {s : State} {m : Time} (hheld : s.isHeld = false) (hnext : s.cg.nextMark = some m)
    (hrig : s.cg.rig = .setup) :
    ∃ t, exec .setupReferenceMark s = .next t ∧ t = { waitUntil m s with cg := t.cg } ∧
      t.cg = { s.cg with nextMark := t.cg.nextMark, window := t.cg.window, lock := t.cg.lock } ∧ markPassed m none s t ∧
      (s.cg.source = .free → t.cg.nextMark = none) := by
  have hdue := dueMark_some hheld ((markKind_iff s).1.2 hrig) hnext
  have hcg : (setupMarkEvent m s).cg = s.cg.passMark m none := by
    rw [setupMarkEvent, State.mapCg_cg, (waitUntil_frame m s).1]
  refine ⟨setupMarkEvent m s, ?_, rfl, ?_, markPassed_of (by rw [hcg]) (by rw [hcg]) (fun _ => by rw [hcg]), fun hfree => ?_⟩
  · simp only [exec, execSetupReferenceMark, hdue]
  · rw [hcg]
    exact passMark_eq m none s.cg
  · rw [hcg, passMark_free m none hfree]

theorem leadMark_begins {s : State} {m : Time} {a : Agreement} (hheld : s.isHeld = false) (hnext : s.cg.nextMark = some m)
    (hrig : s.cg.rig = .rolling) (howed : s.cg.leadOwed = true) (href : s.cg.source = .ref)
    (ha : s.ae.agreement = some a) :
    ∃ t plan, exec .leadMark s = .next t ∧
      t = { waitUntil m s with
        cg := t.cg, tp := { s.tp with inProgress := some plan }, lts := t.lts
        lme := { s.lme with previous := t.lme.previous, clearMark := t.lme.clearMark } } ∧
      t.cg = { s.cg with
        nextMark := t.cg.nextMark, window := t.cg.window, lock := t.cg.lock, leadOwed := false
        planPeriod := t.cg.planPeriod } ∧
      markPassed m none s t ∧ beganPlan a s t plan ∧ (s.storeSound → heldApplied s t) := by
  have hdue := dueMark_some hheld ((markKind_iff s).2.1.2 ⟨hrig, howed⟩) hnext
  obtain ⟨u, hu⟩ : ∃ u, u = (waitUntil m s).mapCg fun c => { c.passMark m none with leadOwed := false } := ⟨_, rfl⟩
  have hpass := passMark_eq m none s.cg
  have hucg : u.cg = { s.cg.passMark m none with leadOwed := false } := by
    rw [hu, State.mapCg_cg, (waitUntil_frame m s).1]
  have husource : u.cg.source = .ref := by rw [hucg]; exact (passMark_source m none s.cg).trans href
  have huae : u.ae = s.ae := by rw [hu]; simp
  have hutp : u.tp = s.tp := by rw [hu]; simp
  have hults : u.lts = s.lts := by rw [hu]; simp
  have hulme : u.lme = s.lme := by rw [hu]; simp
  obtain ⟨plan, hfields, -, hbegan⟩ := planStart_fields (u := u) (a := a) (by rw [huae, ha])
  have hcg : (planStart u).cg = { s.cg.passMark m none with
      leadOwed := false, planPeriod := (planCadence u.cg a).period } := by
    rw [hfields]
    dsimp only
    rw [beginPlan_ref a _ husource, hucg]
  obtain ⟨hit, hcleared⟩ := applyPendingOps_lme u
  refine ⟨planStart u, plan, ?_, ?_, ?_, markPassed_of (by rw [hcg]) (by rw [hcg]) (fun _ => by rw [hcg]), ?_, fun h => ?_⟩
  · simp only [exec, execLeadMark, hdue, leadMarkEvent, ← hu]
  · have hdemand : (planStart u).lme.demand = s.lme.demand := by
      rw [hfields, hcleared, hulme]
      rfl
    have hlme : (planStart u).lme =
        { s.lme with previous := (planStart u).lme.previous, clearMark := (planStart u).lme.clearMark } :=
      congrArg (fun d => LensMatch.mk d (planStart u).lme.previous (planStart u).lme.clearMark) hdemand
    refine State.eq_of_fields ?_ rfl (fun e => ?_) ?_ ?_ rfl hlme ?_ ?_ ?_ ?_ ?_
    case refine_4 => rw [hfields, hutp]
    all_goals
      rw [hfields, hu]
      rfl
  · rw [hcg]
    conv_lhs => rw [hpass]
  · refine beganPlan_congr (s := u) (hbegan ?_) ?_ ?_ ?_ ?_ ?_ <;> rw [hucg, hpass]
    exact hrig
  · exact heldApplied_congr (planStart_heldApplied (h.form.congr hults fun e => by rw [hu]; simp)) hults.symm
      (by rw [hulme]) rfl rfl fun _ => rfl

/-! ## The drain mark -/

/-! Ageing and retirement look at the window, the ports and the queue alone, and not at the cadence. -/

theorem offer_mapCg (g : Cadence → Cadence) (r : PairRecord) (s : State) : offer r (s.mapCg g) = (offer r s).mapCg g := by
  unfold offer
  rw [State.mapCg_pq]
  split <;> rfl

theorem retireSlot_mapCg (g : Cadence → Cadence) (p : PairSlot) (s : State) :
    retireSlot p (s.mapCg g) = (retireSlot p s).mapCg g :=
  offer_mapCg g (p.record (s.eyes.map EyePort.lost)) (forgetMark p.mark .right (forgetMark p.mark .left (takeLost s)))

theorem retireFrom_mapCg (g : Cadence → Cadence) (l : List PairSlot) (s : State) :
    retireFrom l (s.mapCg g) = (retireFrom l s).mapCg g := by
  induction l generalizing s with
  | nil => rfl
  | cons slot rest ih =>
    rw [retireFrom, retireFrom]
    split
    · rw [retireSlot_mapCg, ih]
    · rfl

theorem forgetTimedOut_mapCg (g : Cadence → Cadence) (depth : Nat) (l : List PairSlot) (s : State) :
    forgetTimedOut depth l (s.mapCg g) = (forgetTimedOut depth l s).mapCg g := by
  induction l generalizing s with
  | nil => rfl
  | cons slot rest ih =>
    rw [forgetTimedOut, forgetTimedOut, ← ih]
    split <;> rfl

theorem ageWindow_mapCg (g : Cadence → Cadence) (s : State) : ageWindow (s.mapCg g) = (ageWindow s).mapCg g := by
  unfold ageWindow retire
  dsimp only
  rw [State.mapCg_ae, State.mapCg_pe, forgetTimedOut_mapCg]
  generalize forgetTimedOut _ _ s = u
  generalize List.map (PairSlot.timeOut _) _ = l
  exact retireFrom_mapCg g l (u.mapPe fun p => { p with window := l })

/-- What ageing leaves of a port: all but the count of lost reports, which a record takes. -/
theorem ageWindow_eye (s : State) (e : Eye) :
    (ageWindow s).eye e =
      { s.eye e with lost := ((ageWindow s).eye e).lost, takenFull := ((ageWindow s).eye e).takenFull } := by
  rw [ageWindow_port]
  split <;> rfl

/-- The last drain mark ages out every slot of a sound window (R9, R142). -/
theorem ageWindow_empties {s : State} (h : s.windowSound) (hrig : s.cg.rig = .draining)
    (hlast : s.cg.drainCount + 1 = s.ae.frame.depth) : (ageWindow s).pe.window = [] := by
  obtain ⟨-, -, hdecreasing, hbound, -, hdraining⟩ := (windowSound_iff s).1 h
  obtain ⟨-, hcount⟩ := hdraining hrig
  refine List.eq_nil_iff_forall_not_mem.2 fun p hp => ?_
  have hlt := ageWindow_age_lt hdecreasing (by rwa [List.forall_mem_map] at hbound) p hp
  obtain ⟨-, l, hage⟩ := ageWindow_marks s
  have hmem : p.age ∈ s.pe.window.map fun p => p.age + 1 := hage ▸ List.mem_append_right _ (List.mem_map_of_mem hp)
  obtain ⟨old, hold, heq⟩ := List.mem_map.1 hmem
  have hlow := hcount old.age (List.mem_map_of_mem hold)
  omega

theorem placeChoice_rcp (cause : Option Eye) (outcome : Option Agreement) (s : State) :
    (placeChoice cause outcome s).rcp = { s.rcp with
      notices := if outcome = none then addNotice s.rcp.notices .noCommonMode else s.rcp.notices } := by
  cases outcome with
  | none => simp [placeChoice, raise, setAgreement]
  | some a =>
    rw [placeChoice_some]
    split
    · simp [setAgreement]
    · simp [setAgreement]

/-- With an eye that holds no CAPS, or with both AGREED, the return to SETUP runs no choice (R64). -/
theorem returnChoice_keeps {s : State} (h : (∃ e, (s.eye e).caps = none) ∨ ∀ e, (s.eye e).state = .agreed) :
    returnChoice s = s := by
  refine if_neg ?_
  rintro hruns
  simp only [Bool.and_eq_true, Bool.not_eq_true', Bool.and_eq_false_iff, decide_eq_false_iff_not,
    Option.isSome_iff_ne_none] at hruns
  obtain ⟨⟨hl, hr⟩, hagreed⟩ := hruns
  rcases h with ⟨e, he⟩ | hall
  · cases e
    · exact hl he
    · exact hr he
  · exact hagreed.elim (fun hn => hn (hall .left)) fun hn => hn (hall .right)

/-- With both CAPS held and an eye that is not AGREED it runs the choice (R56, R64). -/
theorem returnChoice_runs {s : State} {l r : Caps} (hl : s.eyes.left.caps = some l) (hr : s.eyes.right.caps = some r)
    (h : ∃ e, (s.eye e).state ≠ .agreed) :
    returnChoice s = placeChoice none (choose s.ae.frame s.ae.exclusion l.offers r.offers) s := by
  rw [← runChoice_both none hl hr]
  refine if_pos ?_
  simp only [hl, hr, Option.isSome_some, Bool.and_self, Bool.true_and, Bool.not_eq_true', Bool.and_eq_false_iff,
    decide_eq_false_iff_not]
  obtain ⟨e, he⟩ := h
  cases e
  · exact .inl he
  · exact .inr he

/-- A drain mark: the rig drains on, or the last of them returns it to SETUP. -/
theorem drainMarkEvent_eq (m : Time) (s : State) : drainMarkEvent m s =
    if s.ae.frame.depth ≤ s.cg.drainCount + 1 then
      returnChoice ((ageWindow (waitUntil m s)).mapCg fun c => (c.drainMark m (waitUntil m s).timebase).endDrain)
    else (ageWindow (waitUntil m s)).mapCg (Cadence.drainMark m (waitUntil m s).timebase) := by
  unfold drainMarkEvent
  dsimp only
  have hcount : ((s.cg.drainMark m (waitUntil m s).timebase)).drainCount = s.cg.drainCount + 1 :=
    congrArg (· + 1) (passMark_counts m none s.cg).2.1
  have hcg : (ageWindow (waitUntil m s)).cg = s.cg := by simp
  have hae : (ageWindow (waitUntil m s)).ae = s.ae := by simp
  rw [ageWindow_mapCg, State.mapCg_ae, State.mapCg_cg, hcg, hae, hcount]
  rfl

theorem markPassed_drained {m : Time} {s t : State} {g : Cadence → Cadence} (ht : t.cg = g (s.cg.passMark m none))
    (hlock : ∀ c, (g c).lock = c.lock) (hwindow : ∀ c, (g c).window = c.window)
    (hnext : ∀ c, c.source = .ref → (g c).nextMark = c.nextMark) : markPassed m none s t :=
  markPassed_of (by rw [ht, hlock]) (by rw [ht, hwindow]) fun href => by
    rw [ht]
    exact hnext _ ((passMark_source m none s.cg).trans href)

/-- A drain mark with others to come (R9). -/
theorem drainMark_more {s : State} {m : Time} (hheld : s.isHeld = false) (hnext : s.cg.nextMark = some m)
    (hrig : s.cg.rig = .draining) (hmore : s.cg.drainCount + 1 < s.ae.frame.depth) :
    exec .drainMark s =
      .next ((ageWindow (waitUntil m s)).mapCg (Cadence.drainMark m (waitUntil m s).timebase)) := by
  have hdue := dueMark_some hheld ((markKind_iff s).2.2.2.2 hrig) hnext
  simp only [exec, execDrainMark, hdue]
  rw [drainMarkEvent_eq, if_neg (Nat.not_le.2 hmore)]

/-- The last drain mark (R9, R10). -/
theorem drainMark_last {s : State} {m : Time} (hheld : s.isHeld = false) (hnext : s.cg.nextMark = some m)
    (hrig : s.cg.rig = .draining) (hlast : s.cg.drainCount + 1 = s.ae.frame.depth) :
    exec .drainMark s = .next (returnChoice ((ageWindow (waitUntil m s)).mapCg fun c =>
      (c.drainMark m (waitUntil m s).timebase).endDrain)) := by
  have hdue := dueMark_some hheld ((markKind_iff s).2.2.2.2 hrig) hnext
  simp only [exec, execDrainMark, hdue]
  rw [drainMarkEvent_eq, if_pos hlast.ge]

theorem drainMark_cg (m now : Time) (c : Cadence) : c.drainMark m now = { c with
    drainCount := c.drainCount + 1, nextMark := (c.drainMark m now).nextMark, window := (c.passMark m none).window
    lock := (c.passMark m none).lock } := by
  have hpass := passMark_eq m none c
  unfold Cadence.drainMark
  generalize c.passMark m none = d at *
  rw [hpass]

theorem drainMark_nextMark (m now : Time) (c : Cadence) :
    (c.source = .free → (c.drainMark m now).nextMark = some (after now c.planPeriod)) ∧
      (c.source = .ref → (c.drainMark m now).nextMark = (c.passMark m none).nextMark) := by
  unfold Cadence.drainMark
  dsimp only
  rw [passMark_source]
  refine ⟨fun h => ?_, fun h => ?_⟩ <;> rw [h]
  rw [passMark_free m none h]

theorem endDrain_nextMark (c : Cadence) :
    (c.source = .free → c.endDrain.nextMark = none) ∧ (c.source = .ref → c.endDrain.nextMark = c.nextMark) := by
  unfold Cadence.endDrain
  exact ⟨fun h => by rw [h], fun h => by rw [h]⟩

theorem aged_rest {w t : State} (hresets : t.resets = w.resets) (hpending : t.pending = w.pending)
    (htime : t.timebase = w.timebase) (hlts : t.lts = w.lts) (hlme : t.lme = w.lme)
    (hpe : t.pe = (ageWindow w).pe) (hpq : t.pq = (ageWindow w).pq) :
    t = { w with cg := t.cg, eyes := t.eyes, ae := t.ae, tp := t.tp, pe := (ageWindow w).pe, pq := (ageWindow w).pq
                 rcp := t.rcp } :=
  State.eq_of_fields htime rfl (fun _ => rfl) rfl rfl hlts hlme hpe hpq rfl hresets hpending

/-- Settles O23: each mark that takes no number, by what it passes on to the cadence, the plan and the window. -/
theorem unnumberedMarks : Obligations.UnnumberedMarks := by
  intro s m hheld hnext
  refine ⟨setupReferenceMark_passes hheld hnext, fun hrig howed href a => leadMark_begins hheld hnext hrig howed href,
    fun hrig hwindow aged haged => ?_⟩
  obtain ⟨hwcg, hwae, -, -, -, hwpe, -⟩ := waitUntil_frame m s
  have hcg : aged.cg = s.cg := by rw [haged]; simp
  have hae : aged.ae = s.ae := by rw [haged]; simp
  have heye : ∀ e, aged.eye e =
      { (waitUntil m s).eye e with lost := (aged.eye e).lost, takenFull := (aged.eye e).takenFull } := fun e => by
    rw [haged]
    exact ageWindow_eye _ e
  have hport : ∀ e, (aged.eye e).state = (s.eye e).state ∧ (aged.eye e).caps = (s.eye e).caps ∧
      (aged.eye e).buffer = (s.eye e).buffer ∧ (aged.eye e).fresh = (s.eye e).fresh := fun e => by
    obtain ⟨hstate, hcaps, hbuffer, hfresh, -⟩ := waitUntil_port m s e
    rw [heye]
    exact ⟨hstate, hcaps, hbuffer, hfresh⟩
  obtain ⟨hfree, href⟩ := drainMark_nextMark m (waitUntil m s).timebase s.cg
  have hdrained := drainMark_cg m (waitUntil m s).timebase s.cg
  have hsource : (s.cg.drainMark m (waitUntil m s).timebase).source = s.cg.source := by rw [hdrained]
  have hlt := (((windowSound_iff s).1 hwindow).2.2.2.2.2 hrig).1
  rcases Nat.lt_or_eq_of_le (Nat.succ_le_of_lt hlt) with hmore | hlast
  · obtain ⟨t, ht⟩ : ∃ t, t = aged.mapCg (Cadence.drainMark m (waitUntil m s).timebase) := ⟨_, rfl⟩
    have htcg : t.cg = s.cg.drainMark m (waitUntil m s).timebase := by rw [ht, State.mapCg_cg, hcg]
    refine ⟨t, ?_, ?_, ?_, ?_, fun kept hkept => ⟨fun _ => ⟨?_, ?_, ?_, fun h => ?_⟩, fun hlast => absurd hmore (by omega)⟩⟩
    · rw [drainMark_more hheld hnext hrig hmore, ht, haged]
    · rw [haged]
      rw [haged] at ht
      refine aged_rest ?_ ?_ ?_ ?_ ?_ ?_ ?_ <;> simp [ht]
    · generalize s.cg.drainMark m (waitUntil m s).timebase = d at htcg hdrained
      rw [htcg, hdrained]
    · refine markPassed_of ?_ ?_ fun h => ?_
      · rw [htcg, hdrained]
      · rw [htcg, hdrained]
      · rw [htcg, href h]
    · rw [htcg, hdrained]
      exact hrig
    · rw [htcg, hdrained]
    · rw [hkept, ht]
      exact ⟨heye, hae, rfl, rfl⟩
    · rw [htcg, hfree h, ht]
      simp [haged, after]
  · obtain ⟨u, hu⟩ : ∃ u, u = aged.mapCg fun c => (c.drainMark m (waitUntil m s).timebase).endDrain := ⟨_, rfl⟩
    have hucg : u.cg = (s.cg.drainMark m (waitUntil m s).timebase).endDrain := by rw [hu, State.mapCg_cg, hcg]
    have hueye : ∀ e, u.eye e = aged.eye e := fun e => by rw [hu]; rfl
    have hplaced := returnChoice_placedAs u
    obtain ⟨t, ht⟩ : ∃ t, t = returnChoice u := ⟨_, rfl⟩
    rw [← ht] at hplaced
    have htcg : t.cg = (s.cg.drainMark m (waitUntil m s).timebase).endDrain := hplaced.blocks.2.1.trans hucg
    obtain ⟨hendFree, hendRef⟩ := endDrain_nextMark (s.cg.drainMark m (waitUntil m s).timebase)
    rw [hsource] at hendFree hendRef
    refine ⟨t, ?_, ?_, ?_, ?_, fun kept hkept => ⟨fun hmore => absurd hlast (by omega), fun _ =>
      ⟨?_, ?_, ?_, fun h => ?_, fun h => ?_, fun l r outcome hl hr hnot houtcome => ?_⟩⟩⟩
    · rw [drainMark_last hheld hnext hrig hlast, ht, hu, haged]
    · rw [haged]
      rw [haged] at hu
      refine aged_rest ?_ ?_ ?_ ?_ ?_ ?_ ?_ <;> simp [ht, hu]
    · generalize s.cg.drainMark m (waitUntil m s).timebase = d at htcg hdrained
      rw [htcg, Cadence.endDrain, hdrained]
    · refine markPassed_of ?_ ?_ fun h => ?_
      · rw [htcg, Cadence.endDrain, hdrained]
      · rw [htcg, Cadence.endDrain, hdrained]
      · rw [htcg, hendRef h, href h]
    · rw [htcg]
      rfl
    · rw [htcg]
      rfl
    · rw [hplaced.blocks.2.2.2.2.2.2.1, hu, State.mapCg_pe, haged]
      refine ageWindow_empties (s := waitUntil m s) ?_ ?_ ?_
      · exact hwindow
      · rw [hwcg]
        exact hrig
      · rw [hwcg, hwae]
        exact hlast
    · rw [htcg, hendFree h]
    · have hsame : t = u := by
        rw [ht]
        rcases h with ⟨e, he⟩ | hall
        · exact returnChoice_keeps (.inl ⟨e, by rw [hueye, (hport e).2.1, he]⟩)
        · exact returnChoice_keeps (.inr fun e => by rw [hueye, (hport e).1, hall e])
      rw [hkept, hsame, hu]
      exact ⟨heye, hae, rfl, rfl⟩
    · have huae : u.ae = s.ae := by rw [hu]; exact hae
      have hruns := returnChoice_runs (s := u) (l := l) (r := r) ((congrArg EyePort.caps (hueye .left)).trans
        ((hport .left).2.1.trans hl)) ((congrArg EyePort.caps (hueye .right)).trans ((hport .right).2.1.trans hr))
        (by simpa only [hueye, (hport _).1] using hnot)
      rw [huae, ← houtcome, ← ht] at hruns
      obtain ⟨-, -, hframe, hexclusion, -⟩ := hplaced.blocks
      refine ⟨choicePlaced_congr (s := u) (t := t) ?_ (by rw [huae]) (fun e => ?_) rfl rfl (fun _ => rfl),
        by rw [hframe, huae], by rw [hexclusion, huae], fun e => ?_, ?_⟩
      · rw [hruns]
        exact placeChoice_choicePlaced none outcome u
      · obtain ⟨hstate, -, hbuffer, hfresh⟩ := hport e
        rw [hueye]
        exact ⟨hstate.symm, hbuffer.symm, hfresh.symm⟩
      · obtain ⟨-, hcaps, -, hlost, hfull⟩ := hplaced.port e
        rw [hcaps, hlost, hfull, hueye]
        exact ⟨(hport e).2.1, rfl, rfl⟩
      · rw [hruns, placeChoice_rcp, hu, State.mapCg_rcp]

end Sys2Proof.Machine
end

section
/-! PROOFS. What the departure of an eye does to the window, the lists, the plans and the lens store, and the departures of an
attached eye (O33, O34). -/

namespace Sys2Proof.Machine

/-! ## The parts of a departing eye -/

theorem EyePart.depart_eq_departed (p : EyePart) : p.depart = p.departed := by
  unfold EyePart.depart EyePart.departed
  cases hp : p.state <;> simp [PartState.final]

/-- Two states with the same window, trigger lists, pair queue and lost-report counts. -/
def State.sameParts (s t : State) : Prop :=
  t.pe = s.pe ∧ t.pq = s.pq ∧ t.tp.pulses = s.tp.pulses ∧
    ∀ e, (t.eye e).lost = (s.eye e).lost ∧ (t.eye e).takenFull = (s.eye e).takenFull

theorem partsLost.congr {e : Eye} {s t s' t' : State} (h : partsLost e s t) (hs : s.sameParts s') (ht : t.sameParts t') :
    partsLost e s' t' := by
  obtain ⟨hspe, hspq, hspulses, hseye⟩ := hs
  obtain ⟨htpe, htpq, htpulses, hteye⟩ := ht
  have hfull : ∀ e', (s'.eye e').lostTaken.takenFull = (s.eye e').lostTaken.takenFull := fun e' => by
    unfold EyePort.lostTaken
    rw [(hseye e').1, (hseye e').2]
  unfold partsLost
  rw [hspe, hspq, hspulses, htpe, htpq, htpulses]
  simp only [hfull, hseye, hteye]
  exact h

/-- A departure completes the open parts of the eye, and the slots so completed at the front retire (R143, R147). -/
theorem departEye_partsLost (e : Eye) (s : State) : partsLost e s (departEye e s) := by
  obtain ⟨u, hu⟩ : ∃ u : State, u.pe.window = s.lostWindow e ∧ departEye e s = retire u ∧ u.pq = s.pq ∧
      u.pe.triggers = s.pe.triggers.set e [] ∧ u.tp.pulses = s.tp.pulses.set e [] ∧
      ∀ e', (u.eye e').lost = (s.eye e').lost ∧ (u.eye e').takenFull = (s.eye e').takenFull := by
    refine ⟨_, ?_, rfl, ?_, ?_, ?_, fun e' => ?_⟩
    · simp [State.lostWindow]
    · simp
    · simp
    · simp
    · obtain rfl | rfl := Eye_eq_or_eq_other e e' <;> simp [State.mapEye_eye]
  obtain ⟨hwindow, hretire, hpq, htriggers, hpulses, heye⟩ := hu
  obtain ⟨n, hn, hle, hnew, hcomplete, hhead⟩ := retire_counted u
  obtain ⟨-, htake, -⟩ := take_takeWhile PairSlot.complete u.pe.window
  rw [hretire]
  refine ⟨n, u.pe.window, ?_, hnew, hle, hcomplete, by rw [hnew]; exact hhead, ?_, ?_, fun p => ?_, fun x => ?_, fun e' => ?_,
    fun hzero => ?_⟩
  · rw [hwindow, State.lostWindow]
    refine forall₂_map (fun slot => ?_) _
    rw [← EyePart.depart_eq_departed]
    rfl
  · rw [retire, retireFrom_triggers, htriggers, PerEye_get_set_same, List.filter_nil]
  · rw [retire, retireFrom_pulses, hpulses, PerEye_get_set_same, List.filter_nil]
  · rw [retire, retireFrom_pulses, hpulses, PerEye_get_set_other, List.mem_filter, freeOf_iff, hn, htake]
  · rw [retire, retireFrom_triggers, htriggers, PerEye_get_set_other, List.mem_filter, freeOf_iff, hn, htake]
  · rw [retire, retireFrom_port]
    obtain ⟨hlost, hfull⟩ := heye e'
    by_cases hpos : 0 < n
    · rw [if_neg (List.ne_nil_of_length_pos (hn ▸ hpos)), if_pos hpos, if_pos hpos, EyePort.takeLost_eq]
      refine ⟨rfl, ?_⟩
      unfold EyePort.lostTaken
      rw [hlost, hfull]
    · rw [if_pos (List.eq_nil_of_length_eq_zero (by omega)), if_neg hpos, if_neg hpos]
      exact ⟨hlost, hfull⟩
  · rw [retire_of_none (List.eq_nil_of_length_eq_zero (hn.symm.trans hzero)), hpq]

/-- A departure is recorded in each plan that includes the eye (R72). -/
theorem departEye_plansDeparted (e : Eye) {s t : State} (hplan : t.tp.inProgress = s.tp.inProgress.map (PlanInProgress.depart e))
    (hprepared : t.tp.prepared = s.tp.prepared.map (Plan.depart e)) : plansDeparted e s t := by
  refine ⟨hplan.trans (congrArg (fun f => Option.map f _) (funext fun p => ?_)),
    hprepared.trans (congrArg (fun f => Option.map f _) (funext fun p => ?_))⟩
  · unfold PlanInProgress.depart
    split <;> rfl
  · unfold Plan.depart
    split <;> rfl

theorem departEye_lme (e : Eye) (s : State) :
    (departEye e s).lme = s.lme.clearedFor s.tp.inProgress.isSome fun e' => decide (e' = e) := by
  unfold departEye
  dsimp only
  rw [(loseParts_frame _ _).2.2.2.2.1, State.mapTp_lme, clearPrevious_lme, State.mapEye_lme, State.mapEye_tp]

/-! ## The store at a departure -/

theorem bindingOf_of_none {s : State} {e : Eye} (h : (s.eye e).caps = none) : s.bindingOf e = none := by
  rw [State.bindingOf, h]
  rfl

theorem holdCaps_none_lts (e : Eye) (s : State) :
    (holdCaps e none s).lts = { s.lts with binding := s.lts.binding.set e none } := by
  rw [holdCaps, evalBinding_lts, bindingOf_of_none (by simp [State.mapEye_eye])]
  rfl

/-- With the eye's previous targets cleared already, the end of its binding clears nothing more. -/
theorem holdCaps_cleared (e : Eye) (c : Option Caps) {s t : State} (htp : t.tp.inProgress.isSome = s.tp.inProgress.isSome)
    (h : t.lme = s.lme.clearedFor s.tp.inProgress.isSome fun e' => decide (e' = e)) :
    (holdCaps e c t).lme = s.lme.clearedFor s.tp.inProgress.isSome fun e' => decide (e' = e) := by
  rw [holdCaps, evalBinding_lme, State.mapEye_lme, State.mapEye_tp, h, htp, clearedFor_clearedFor]
  congr 1
  funext e'
  cases hd : decide (e' = e) <;> simp

theorem clearedFor_eye (plan : Bool) (e : Eye) (l : LensMatch) :
    l.clearedFor plan (fun e' => decide (e' = e)) = { l with
      previous := l.previous.set e (.all none), clearMark := if plan then l.clearMark.set e true else l.clearMark } := by
  unfold LensMatch.clearedFor
  simp only [LensMatch.mk.injEq, true_and]
  refine ⟨PerEye_ext fun e' => ?_, PerEye_ext fun e' => ?_⟩
  · by_cases h : e' = e <;> simp [PerEye_get_set, h]
  · by_cases h : e' = e <;> cases plan <;> simp [PerEye_get_set, h]

theorem departEye_plan (e : Eye) (s : State) : (departEye e s).tp.inProgress.isSome = s.tp.inProgress.isSome := by
  rw [departEye_tp]
  exact Option.isSome_map

@[simp] theorem detachedOut_frame (e : Eye) (s : State) :
    (detachedOut e s).timebase = s.timebase ∧ (detachedOut e s).cg = s.cg ∧ (detachedOut e s).ae = s.ae ∧
    (detachedOut e s).resets = s.resets ∧ (detachedOut e s).pending = s.pending := by
  unfold detachedOut
  split <;> simp

theorem detachedOut_lts (e : Eye) (s : State) :
    (detachedOut e s).lts = { s.lts with binding := s.lts.binding.set e none } := by
  unfold detachedOut
  rw [holdCaps_none_lts]
  split <;> simp

theorem detachedOut_lme (e : Eye) (s : State) :
    (detachedOut e s).lme = { s.lme with
      previous := s.lme.previous.set e (.all none)
      clearMark := if s.tp.inProgress.isSome then s.lme.clearMark.set e true else s.lme.clearMark } := by
  rw [← clearedFor_eye]
  unfold detachedOut
  split
  · refine holdCaps_cleared e none ?_ ?_
    · rw [setEyeState_tp]
      exact (departEye_plan e _).trans (by simp)
    · simp [departEye_lme]
  · refine holdCaps_cleared e none ?_ ?_
    · rw [setEyeState_tp]
      rfl
    · simp [clearPrevious_lme]

/-! ## The state after a departure for DETACHED -/

/-- Of an eye outside the take a departure changes its own port, binding and previous targets alone (R29). -/
theorem detachedOut_outside {e : Eye} {s : State} (h : (s.eye e).state.inTake = false) :
    (detachedOut e s).tp = { s.tp with pulses := s.tp.pulses.set e [] } ∧ (detachedOut e s).pe = s.pe ∧
      (detachedOut e s).pq = s.pq ∧ (detachedOut e s).rcp = s.rcp := by
  unfold detachedOut
  rw [h]
  refine ⟨?_, by simp, by simp, by simp⟩
  rw [(holdCaps_frame _ _ _).2.2.2.1, setEyeState_tp]
  rfl

/-- A departing eye of the take loses its parts, its pulses and its last readout start too (R67, R72, R88, R143). -/
theorem detachedOut_inTake {e : Eye} {s : State} (h : (s.eye e).state.inTake = true) :
    (detachedOut e s).tp = { s.tp with
      pulses := (detachedOut e s).tp.pulses
      lastReadout := s.tp.lastReadout.set e none
      inProgress := s.tp.inProgress.map (PlanInProgress.depart e)
      prepared := s.tp.prepared.map (Plan.depart e) } ∧
    partsLost e s (detachedOut e s) := by
  obtain ⟨u, hu⟩ : ∃ u, u = s.mapEye e EyePort.partialReset := ⟨_, rfl⟩
  have hutp : u.tp = s.tp := by rw [hu]; simp
  have hout : detachedOut e s = holdCaps e none (setEyeState e .detached (departEye e u)) := by
    rw [detachedOut, if_pos h, hu]
  have hlost := departEye_partsLost e u
  have hnone : (departEye e u).tp.pulses.get e = [] := by
    obtain ⟨_, _, _, _, _, _, _, _, hpulses, _⟩ := hlost
    exact hpulses
  have htp : (detachedOut e s).tp = (departEye e u).tp := by
    rw [hout, (holdCaps_frame _ _ _).2.2.2.1, setEyeState_tp, ← hnone, PerEye_set_get]
    rfl
  refine ⟨?_, hlost.congr ⟨?_, ?_, ?_, fun e' => ?_⟩ ⟨?_, ?_, congrArg TriggerPlanner.pulses htp, fun e' => ?_⟩⟩
  · rw [htp, departEye_tp, hutp]
  · rw [hu]; simp
  · rw [hu]; simp
  · rw [hutp]
  · rw [hu, State.mapEye_eye]
    split
    · next he => rw [he]; exact ⟨rfl, rfl⟩
    · exact ⟨rfl, rfl⟩
  · rw [hout]; simp
  · rw [hout]; simp
  · rw [hout, holdCaps_eye, setEyeState_eye, setEyeState_eye, if_pos rfl]
    split
    · next he => rw [he]; exact ⟨rfl, rfl⟩
    · exact ⟨rfl, rfl⟩

/-- A DETACH or a PORT disable of an attached eye, as the statements of O33 and O34 give it: `s'` is the state with the
command's own work done and the eye still attached. -/
def leavesBy (c : Instr) (s s' : State) (e : Eye) : Prop :=
  (∃ n, c = .detach e ∧ (s.eye e).pres = false ∧ (s.eye e).timer = .low n ∧ s' = advance (100000 - n) s) ∨
    (∃ code pad, c = .portDisable code pad ∧ code = (match e with | .left => 0 | .right => 1) ∧ s.rcpServes ∧
      (s.eye e).enabled = true ∧
      s' = { s with
        rcp := s.rcpAnswer (.port code 0) pad .done, eyes := s.eyes.set e { s.eye e with enabled := false } })

/-- What the command's own work leaves. -/
theorem leavesBy_frame {c : Instr} {s s' : State} {e : Eye} (h : leavesBy c s s' e) :
    (s'.cg = s.cg ∧ s'.ae = s.ae ∧ s'.tp = s.tp ∧ s'.lts = s.lts ∧ s'.lme = s.lme ∧ s'.pe = s.pe ∧ s'.pq = s.pq) ∧
      ∀ e', (s'.eye e').state = (s.eye e').state ∧ (s'.eye e').caps = (s.eye e').caps ∧ (s'.eye e').lost = (s.eye e').lost ∧
        (s'.eye e').txn = (s.eye e').txn := by
  rcases h with ⟨n, -, -, -, rfl⟩ | ⟨code, pad, -, -, -, -, rfl⟩
  · refine ⟨by simp, fun e' => ?_⟩
    rw [advance_eye]
    simp
  · refine ⟨⟨rfl, rfl, rfl, rfl, rfl, rfl, rfl⟩, fun e' => ?_⟩
    obtain rfl | rfl := Eye_eq_or_eq_other e e'
    · cases e' <;> exact ⟨rfl, rfl, rfl, rfl⟩
    · cases e <;> exact ⟨rfl, rfl, rfl, rfl⟩

/-- Each of the two commands does its own work and the departure, which sees nothing of the rig control port. -/
theorem exec_leaves {c : Instr} {s s' : State} {e : Eye} (hattached : (s.eye e).state.attached = true)
    (h : leavesBy c s s' e) :
    ∃ w, w = { s' with rcp := w.rcp } ∧ w.rcp.notices = s'.rcp.notices ∧
      exec c s = .next { leaveAttached e w with
        rcp := { s'.rcp with notices := (leaveAttached e w).rcp.notices } } := by
  rcases h with ⟨n, rfl, hpres, htimer, hs'⟩ | ⟨code, pad, rfl, hcode, hserves, henabled, hs'⟩
  · refine ⟨s', rfl, rfl, ?_⟩
    have hleft : (s.eye e).detachLeft = some (100000 - n) := by
      rw [EyePort.detachLeft, hattached, htimer, hpres]
      rfl
    simp only [exec, execDetach, hleft]
    rw [← hs', ← (leaveAttached_raisedTo e s').1]
  · obtain ⟨u, hu⟩ : ∃ u, u = s.rcpClosed (requestBits (.port code 0) pad) := ⟨_, rfl⟩
    have heye : u.eye e = s.eye e := by rw [hu]; rfl
    refine ⟨u.mapEye e fun p => { p with enabled := false }, ?_, ?_, ?_⟩
    · rw [mapEye_eq, hs', hu]
      rfl
    · rw [hs', hu]
      rfl
    · rw [exec_portDisable_eye pad s hserves (by rw [hcode]; exact eyeCode_eq e), ← hu, disablePort,
        if_neg (by rw [heye, henabled]; decide), heye, if_pos hattached]
      have hrcp := (leaveAttached_raisedTo e (u.mapEye e fun p => { p with enabled := false })).1
      generalize leaveAttached e (u.mapEye e fun p => { p with enabled := false }) = v at *
      refine congrArg (fun r => Host.Outcome.next { v with rcp := r }) ?_
      change { v.rcp with response := ⟨.done, 0x68, []⟩ } = { s'.rcp with notices := v.rcp.notices }
      rw [hrcp, hs', hu]
      rfl

/-! ## In SETUP -/

theorem agreementAfterLeave_setup {e : Eye} {s : State} (h : s.cg.rig = .setup) : agreementAfterLeave e s =
    if (s.eye e.other).caps.isSome = true then awaitPeer e.other (clearExclusion s)
    else setAgreement none (clearExclusion s) := by
  unfold agreementAfterLeave
  dsimp only
  rw [if_pos (show (clearExclusion s).cg.rig = .setup by simpa using h)]
  rfl

theorem leaveAttached_setup {e : Eye} {s : State} (h : s.cg.rig = .setup) :
    leaveAttached e s = agreementAfterLeave e (raise .eyeChange (detachedOut e s)) := by
  have hrig : (agreementAfterLeave e (raise .eyeChange (detachedOut e s))).cg = s.cg := by
    simp
  rw [leaveAttached_eq]
  split
  · rw [testLoss, if_neg (by rw [hrig, h]; simp)]
  · rfl

/-- With no slot open, a departure ends without a record. -/
theorem detachedOut_empty {e : Eye} {s : State} (h : s.pe.window = []) :
    (detachedOut e s).pe.window = [] ∧ (detachedOut e s).pq = s.pq ∧ (detachedOut e s).rcp = s.rcp ∧
      ∀ e', (detachedOut e s).eye e' = if e' = e then (s.eye e).left else s.eye e' := by
  have hslots : s.lostSlots e = [] := by
    rw [State.lostSlots, State.lostWindow, h]
    rfl
  have hretire : ∀ u : State, u.pe.window = [] →
      loseParts e u = u.mapPe fun p => { p with window := [], triggers := p.triggers.set e [] } := fun u hu => by
    refine (retire_of_none ?_).trans ?_
    · simp [hu]
    · simp [State.mapPe, hu]
  have hdepart : ∀ u : State, u.pe.window = [] →
      (departEye e u).pe.window = [] ∧ (departEye e u).pq = u.pq ∧ (departEye e u).rcp = u.rcp := fun u hu => by
    unfold departEye
    dsimp only
    rw [hretire _ (by simpa using hu)]
    simp
  refine ⟨?_, ?_, ?_, fun e' => ?_⟩
  iterate 3
    unfold detachedOut
    split
    · simp [hdepart (s.mapEye e EyePort.partialReset) (by simpa using h)]
    · simp [h]
  · rw [detachedOut_eye, if_neg fun hn => hn.2 hslots]

/-- Settles O33: the port in its partial reset, the record gone, and the other eye waiting for its peer. -/
theorem leavingInSetup : Obligations.LeavingInSetup := by
  intro c s s' e hrig hwindow hattached hleaves
  obtain ⟨⟨hcg, hae, htp, hlts, hlme, hpe, hpq⟩, hport⟩ := leavesBy_frame hleaves
  obtain ⟨w, hw, hnotices, hexec⟩ := exec_leaves hattached hleaves
  have hweye : ∀ e', w.eye e' = s'.eye e' := fun e' => by rw [hw]; rfl
  have hwrig : w.cg.rig = .setup := by rw [hw]; exact (congrArg Cadence.rig hcg).trans hrig
  obtain ⟨hempty, hdpq, hdrcp, hdeye⟩ := detachedOut_empty (e := e) (s := w)
    (by rw [hw]; exact (congrArg Pairing.window hpe).trans hwindow)
  obtain ⟨x, hx⟩ : ∃ x, x = clearExclusion (raise .eyeChange (detachedOut e w)) := ⟨_, rfl⟩
  obtain ⟨v, hv⟩ : ∃ v, v = leaveAttached e w := ⟨_, rfl⟩
  have hxeye : ∀ e', x.eye e' = if e' = e then (w.eye e).left else w.eye e' := fun e' => by
    rw [hx, clearExclusion_eye, ← hdeye]
    rfl
  have hplaced : v = if (s.eye e.other).caps.isSome = true then awaitPeer e.other x else setAgreement none x := by
    rw [hv, leaveAttached_setup hwrig, agreementAfterLeave_setup (by simpa using hwrig), ← hx]
    rw [raise_eye, hdeye, if_neg (Eye_other_ne e), hweye, (hport _).2.1]
  have htimebase : v.timebase = s'.timebase ∧ v.resets = s'.resets ∧ v.pending = s'.pending := by
    rw [hv, (leaveAttached_frame e w).1, (leaveAttached_frame e w).2.1, (leaveAttached_frame e w).2.2, hw]
    exact ⟨rfl, rfl, rfl⟩
  obtain ⟨hvcg, hvlts, hvlme, hvpe, hvpq, hvrcp⟩ : v.cg = w.cg ∧ v.lts = (detachedOut e w).lts ∧
      v.lme = (detachedOut e w).lme ∧ v.pe = (detachedOut e w).pe ∧ v.pq = w.pq ∧
      v.rcp.notices = addNotice w.rcp.notices .eyeChange := by
    rw [hv, leaveAttached_setup hwrig]
    simp [hdpq, hdrcp, raise]
  have hxae : x.ae.exclusion = [] ∧ x.ae.frame = s.ae.frame := by
    have hwae : w.ae = s.ae := by rw [hw]; exact hae
    rw [hx]
    simp [clearExclusion, hwae]
  have hve : v.eye e = x.eye e := by
    rw [hplaced]
    split
    · have h := awaitPeer_eye_other e.other x
      rwa [Eye_other_other] at h
    · rfl
  have hvae : v.ae.agreement = none ∧ v.ae.exclusion = x.ae.exclusion ∧ v.ae.frame = x.ae.frame := by
    rw [hplaced]
    split
    · exact ⟨awaitPeer_agreement _ _, (awaitPeer_placedAs e.other x).blocks.2.2.2.1, (awaitPeer_placedAs e.other x).blocks.2.2.1⟩
    · exact ⟨rfl, rfl, rfl⟩
  have hvtp : v.tp.pulses.get e = (detachedOut e w).tp.pulses.get e ∧ v.tp.lastReadout = (detachedOut e w).tp.lastReadout := by
    have hxtp : x.tp = (detachedOut e w).tp := by rw [hx]; simp
    rw [hplaced, ← hxtp]
    split
    · rw [awaitPeer, waitEye_tp]
      refine ⟨?_, rfl⟩
      have h := PerEye_get_set_other x.tp.pulses e.other ([] : List Pulse)
      rwa [Eye_other_other] at h
    · exact ⟨rfl, rfl⟩
  refine ⟨_, hexec, ?_, ?_, ?_, ?_, ?_, ?_, ?_, ?_, ?_, fun hin => ?_, fun hcaps => ?_, fun hcaps => ?_⟩ <;>
    simp only [← hv]
  · refine State.eq_of_fields ?_ ?_ (fun _ => rfl) rfl rfl rfl rfl rfl ?_ ?_ ?_ ?_
    · exact htimebase.1
    · exact hvcg.trans (by rw [hw])
    · exact hvpq.trans (by rw [hw])
    · rw [hvrcp, hnotices]
    · exact htimebase.2.1
    · exact htimebase.2.2
  · change v.eye e = _
    rw [hve, hxeye, if_pos rfl, hweye]
    rfl
  · exact hvae.1
  · exact hvae.2.1.trans hxae.1
  · exact hvae.2.2.trans hxae.2
  · rw [hvlts, detachedOut_lts]
    exact PerEye_get_set_same _ _ _
  · rw [hvlme, detachedOut_lme]
    exact PerEye_get_set_same _ _ _
  · rw [hvtp.1]
    by_cases hin : (w.eye e).state.inTake = true
    · obtain ⟨-, _, _, -, -, -, -, -, -, hpulses, -⟩ := detachedOut_inTake hin
      exact hpulses
    · rw [(detachedOut_outside (Bool.eq_false_of_not_eq_true hin)).1]
      exact PerEye_get_set_same _ _ _
  · rw [hvpe, hempty]
  · have hwin : (w.eye e).state.inTake = true := by rw [hweye, (hport e).1, hin]
    rw [hvtp.2, (detachedOut_inTake hwin).1]
    exact PerEye_get_set_same _ _ _
  · rw [if_pos hcaps] at hplaced
    rw [hplaced]
    refine ⟨awaitPeer_waits e.other x, ((awaitPeer_placedAs e.other x).port e.other).2.1.trans ?_⟩
    rw [hxeye, if_neg (Eye_other_ne e), hweye, (hport _).2.1]
  · rw [if_neg (by simp [hcaps])] at hplaced
    rw [hplaced]
    refine (hxeye e.other).trans ?_
    rw [if_neg (Eye_other_ne e), hweye]

end Sys2Proof.Machine
end

section
/-! PROOFS. An attached eye leaves during a take (O34). -/

namespace Sys2Proof.Machine

/-! ## Entry into DRAINING with an eye unbound -/

/-- Held changes that are applied bind no eye without CAPS (R105). -/
theorem applyPendingOps_unbound {s : State} {e : Eye} (hcaps : (s.eye e).caps = none) (hbinding : s.lts.binding.get e = none) :
    (applyPendingOps s).lts.binding.get e = none := by
  by_cases h : ∃ k, (s.lts.slot k).pending ≠ none
  · rw [applyPendingOps_eq h]
    refine (PerEye_get_of _ _).trans (bindingOf_of_none ?_)
    rwa [State.mapLts_eye]
  · push Not at h
    rw [applyPendingOps_of_none ((forall_pending_iff _).2 h)]
    exact hbinding

/-- Entry into DRAINING leaves cleared previous targets cleared, and the marks and the demand as they are (R120). -/
theorem enterDraining_cleared {s : State} {e : Eye} (hprevious : s.lme.previous.get e = .all none) :
    (enterDraining s).lme = { s.lme with previous := (enterDraining s).lme.previous } ∧
      (enterDraining s).lme.previous.get e = .all none := by
  have hlme : (stoppedTake s).lme = s.lme := by simp
  obtain ⟨hmark, -⟩ := enterDraining_store s
  obtain ⟨hit, hcleared⟩ := applyPendingOps_lme (stoppedTake s)
  rw [hlme, ← enterDraining_eq] at hcleared
  have hdemand : (enterDraining s).lme.demand = s.lme.demand := by rw [hcleared]; rfl
  refine ⟨congrArg₂ (fun d m => LensMatch.mk d (enterDraining s).lme.previous m) hdemand hmark, ?_⟩
  rw [hcleared]
  refine (PerEye_get_of _ _).trans ?_
  rw [hprevious, ite_self]

/-- An eye without CAPS and binding stays so when the rig drains; the held changes are applied. -/
theorem enterDraining_unbound {s : State} {e : Eye} (hcaps : (s.eye e).caps = none) (hbinding : s.lts.binding.get e = none) :
    (enterDraining s).lts = { s.lts with
        slots := (enterDraining s).lts.slots, binding := (enterDraining s).lts.binding } ∧
      (enterDraining s).lts.binding.get e = none := by
  have hlts : (stoppedTake s).lts = s.lts := by simp
  refine ⟨?_, ?_⟩
  · have h := applyPendingOps_lts (stoppedTake s)
    rw [hlts, ← enterDraining_eq] at h
    exact h
  · rw [enterDraining_eq]
    exact applyPendingOps_unbound ((stoppedTake_caps s e).trans hcaps) (by rw [hlts, hbinding])

/-! ## The ports -/

/-- Both ports after a departure: the eye's in its partial reset, and a record may take the lost-report counts. -/
theorem detachedOut_ports (e : Eye) (s : State) :
    (detachedOut e s).eye e = { (s.eye e).left with
        lost := ((detachedOut e s).eye e).lost, takenFull := ((detachedOut e s).eye e).takenFull } ∧
      (detachedOut e s).eye e.other = { s.eye e.other with
        lost := ((detachedOut e s).eye e.other).lost, takenFull := ((detachedOut e s).eye e.other).takenFull } := by
  have hother := Eye_other_ne e
  rw [detachedOut_eye, detachedOut_eye, if_pos rfl, if_neg hother]
  constructor <;> split <;> rfl

theorem detachedOut_counts_outside {e : Eye} {s : State} (h : (s.eye e).state.inTake = false) (e' : Eye) :
    ((detachedOut e s).eye e').lost = (s.eye e').lost ∧ ((detachedOut e s).eye e').takenFull = (s.eye e').takenFull := by
  rw [detachedOut_eye, if_neg (by simp [h])]
  split
  · next he => rw [he]; exact ⟨rfl, rfl⟩
  · exact ⟨rfl, rfl⟩

/-- The state of a departure during a take, before the test for the loss of both eyes. -/
def leftTake (e : Eye) (s : State) : State := clearExclusion (raise .eyeChange (detachedOut e s))

@[simp] theorem leftTake_frame (e : Eye) (s : State) :
    (leftTake e s).timebase = s.timebase ∧ (leftTake e s).cg = s.cg ∧ (leftTake e s).ae = { s.ae with exclusion := [] } ∧
    (leftTake e s).tp = (detachedOut e s).tp ∧ (leftTake e s).lts = (detachedOut e s).lts ∧
    (leftTake e s).lme = (detachedOut e s).lme ∧ (leftTake e s).pe = (detachedOut e s).pe ∧
    (leftTake e s).pq = (detachedOut e s).pq ∧ (leftTake e s).resets = s.resets ∧ (leftTake e s).pending = s.pending := by
  simp [leftTake, clearExclusion]

@[simp] theorem leftTake_eye (e e' : Eye) (s : State) : (leftTake e s).eye e' = (detachedOut e s).eye e' := rfl

theorem detachedOut_other_state (e : Eye) (s : State) : ((detachedOut e s).eye e.other).state = (s.eye e.other).state := by
  rw [(detachedOut_ports e s).2]

theorem leaveAttached_take {e : Eye} {s : State} (h : s.cg.rig ≠ .setup) : leaveAttached e s =
    if s.cg.rig = .rolling ∧ (s.eye e).state.inTake = true ∧ (s.eye e.other).state.inTake = false then
      enterDraining (leftTake e s)
    else leftTake e s := by
  have hafter : agreementAfterLeave e (raise .eyeChange (detachedOut e s)) = leftTake e s := by
    unfold agreementAfterLeave
    dsimp only
    rw [if_neg (by simpa using h)]
    rfl
  rw [leaveAttached_eq, hafter, testLoss, (leftTake_frame e s).2.1, leftTake_eye, detachedOut_other_state]
  by_cases hin : (s.eye e).state.inTake = true <;> simp [hin]

/-- What a departure during a take leaves of a state, whether the rig then drains or not. -/
theorem leaveAttached_keeps {e : Eye} {s : State} (h : s.cg.rig ≠ .setup) :
    (leaveAttached e s).ae = { s.ae with exclusion := [] } ∧
      (leaveAttached e s).tp = { (detachedOut e s).tp with
        inProgress := (leaveAttached e s).tp.inProgress, prepared := (leaveAttached e s).tp.prepared } ∧
      (leaveAttached e s).lts = { s.lts with
        slots := (leaveAttached e s).lts.slots, binding := (leaveAttached e s).lts.binding } ∧
      (leaveAttached e s).lts.binding.get e = none ∧
      (leaveAttached e s).lme = { s.lme with
        previous := (leaveAttached e s).lme.previous
        clearMark := if s.tp.inProgress.isSome then s.lme.clearMark.set e true else s.lme.clearMark } ∧
      (leaveAttached e s).lme.previous.get e = .all none ∧ (leaveAttached e s).pe = (detachedOut e s).pe ∧
      (leaveAttached e s).pq = (detachedOut e s).pq ∧ (leaveAttached e s).rcp = (leftTake e s).rcp ∧
      ∀ e', ((leaveAttached e s).eye e').lost = ((detachedOut e s).eye e').lost ∧
        ((leaveAttached e s).eye e').takenFull = ((detachedOut e s).eye e').takenFull := by
  obtain ⟨-, -, hae, htp, hlts, hlme, hpe, hpq, -, -⟩ := leftTake_frame e s
  rw [detachedOut_lts] at hlts
  rw [detachedOut_lme] at hlme
  have hbinding : (leftTake e s).lts.binding.get e = none := by
    rw [hlts]
    exact PerEye_get_set_same _ _ _
  have hprevious : (leftTake e s).lme.previous.get e = .all none := by
    rw [hlme]
    exact PerEye_get_set_same _ _ _
  have hcaps : ((leftTake e s).eye e).caps = none := by
    rw [leftTake_eye, (detachedOut_ports e s).1]
    rfl
  have heye : ∀ e', (leftTake e s).eye e' = (detachedOut e s).eye e' := fun e' => rfl
  rw [leaveAttached_take h]
  generalize leftTake e s = r at *
  split
  · obtain ⟨hstore, hunbound⟩ := enterDraining_unbound hcaps hbinding
    obtain ⟨hmatch, hcleared⟩ := enterDraining_cleared hprevious
    have hfields := enterDraining_fields r
    have hports := enterDraining_eye r
    generalize enterDraining r = v at *
    refine ⟨?_, ?_, ?_, hunbound, ?_, hcleared, ?_, ?_, ?_, fun e' => ?_⟩
    · rw [hfields]; exact hae
    · rw [hfields, ← htp]
    · rw [hstore, hlts]
    · rw [hmatch, hlme]
    · rw [hfields]; exact hpe
    · rw [hfields]; exact hpq
    · rw [hfields]
    · rw [hports, EyePort.stopped_eq, heye]
      exact ⟨rfl, rfl⟩
  · refine ⟨hae, by rw [htp], by rw [hlts], hbinding, by rw [hlme], hprevious, hpe, hpq, rfl, fun e' => ?_⟩
    rw [heye]
    exact ⟨rfl, rfl⟩

theorem leftTake_ports (e : Eye) (s : State) :
    (leftTake e s).eye e = { (s.eye e).left with
        lost := ((leftTake e s).eye e).lost, takenFull := ((leftTake e s).eye e).takenFull } ∧
      (leftTake e s).eye e.other = { s.eye e.other with
        lost := ((leftTake e s).eye e.other).lost, takenFull := ((leftTake e s).eye e.other).takenFull } :=
  detachedOut_ports e s

theorem EyePort.stopped_outside {p : EyePort} (h : p.state.inTake = false) : p.stopped = p := by
  refine if_neg fun hr => ?_
  rw [hr] at h
  cases h

theorem EyePort.eq_left_with {p q : EyePort} {b : Option Directive} {f : Bool}
    (h : p = { q.left with buffer := b, fresh := f, lost := p.lost, takenFull := p.takenFull }) :
    p = { q with
      state := .detached, timer := .idle, txn := none, buffer := p.buffer, fresh := p.fresh, image := none, slot := none
      caps := none, trig := none, lost := p.lost, takenFull := p.takenFull } := by
  generalize p.lost = lost at h ⊢
  generalize p.takenFull = full at h ⊢
  subst h
  rfl

theorem drainDirective_congr {s t : State} {e : Eye} (hstate : (t.eye e).state = (s.eye e).state)
    (hagreement : t.ae.agreement = s.ae.agreement) (hreason : t.ae.reason = s.ae.reason) :
    t.drainDirective e = s.drainDirective e := by
  unfold State.drainDirective
  rw [hstate, hagreement, hreason]

/-- The ports when the departure leaves no eye in the take and the rig drains (R6, R8, R64). -/
theorem leftTake_drained {e : Eye} {s : State} (hother : (s.eye e.other).state.inTake = false) :
    (enterDraining (leftTake e s)).eye e = { (s.eye e).left with
        buffer := some .halt, fresh := true
        lost := ((leftTake e s).eye e).lost, takenFull := ((leftTake e s).eye e).takenFull } ∧
      (enterDraining (leftTake e s)).eye e.other = { s.eye e.other with
        lost := ((leftTake e s).eye e.other).lost, takenFull := ((leftTake e s).eye e.other).takenFull
        fresh := true, buffer := some (s.drainDirective e.other)
        txn := (s.eye e.other).txn.map fun x => { x with writeSinceLatch := true } } := by
  obtain ⟨hleft, hright⟩ := leftTake_ports e s
  have hstate : ((leftTake e s).eye e.other).state = (s.eye e.other).state := by rw [hright]
  have hdetached : ((leftTake e s).eye e).state = .detached := by rw [hleft]; rfl
  have hhalt : (leftTake e s).drainDirective e = .halt := by
    rw [State.drainDirective, hdetached]
  rw [enterDraining_eye, enterDraining_eye, EyePort.stopped_outside (by rw [hdetached]; rfl),
    EyePort.stopped_outside (by rw [hstate, hother]), hhalt,
    drainDirective_congr (s := s) hstate (by simp) (by simp)]
  generalize (leftTake e s).eye e = p at *
  generalize (leftTake e s).eye e.other = q at *
  rw [hleft, hright]
  exact ⟨rfl, rfl⟩

/-- Settles O34: the parts and plans of the take, the store, the ports, and whether the rig drains. -/
theorem leavingDuringTake : Obligations.LeavingDuringTake := by
  intro c s s' e hrig hattached hleaves
  obtain ⟨⟨hcg, hae, htp, hlts, hlme, hpe, hpq⟩, hport⟩ := leavesBy_frame hleaves
  obtain ⟨w, hw, hnotices, hexec⟩ := exec_leaves hattached hleaves
  have hweye : ∀ e', w.eye e' = s'.eye e' := fun e' => by rw [hw]; rfl
  have hwcg : w.cg = s.cg := by rw [hw]; exact hcg
  have hwae : w.ae = s.ae := by rw [hw]; exact hae
  have hwtp : w.tp = s.tp := by rw [hw]; exact htp
  have hwlts : w.lts = s.lts := by rw [hw]; exact hlts
  have hwlme : w.lme = s.lme := by rw [hw]; exact hlme
  have hwpe : w.pe = s.pe := by rw [hw]; exact hpe
  have hwpq : w.pq = s.pq := by rw [hw]; exact hpq
  have hwin : ∀ e', (w.eye e').state = (s.eye e').state := fun e' => by rw [hweye, (hport e').1]
  have hwrig : w.cg.rig ≠ .setup := by rw [hwcg]; exact hrig
  obtain ⟨hvae, hvtp, hvlts, hvbinding, hvlme, hvprevious, hvpe, hvpq, hvrcp, hvcounts⟩ := leaveAttached_keeps (e := e) hwrig
  have hvtake := leaveAttached_take (e := e) hwrig
  have hvsound := leaveAttached_storeSound (s := w) e
  obtain ⟨hvtime, hvresets, hvpending⟩ := leaveAttached_frame e w
  have hsame : w.sameParts s' :=
    ⟨by rw [hpe, hwpe], by rw [hpq, hwpq], by rw [htp, hwtp], fun e' => by rw [hweye]; exact ⟨rfl, rfl⟩⟩
  have hpulses : (detachedOut e w).tp.pulses.get e = [] := by
    by_cases hin : (w.eye e).state.inTake = true
    · obtain ⟨-, _, _, -, -, -, -, -, -, hnone, -⟩ := detachedOut_inTake hin
      exact hnone
    · rw [(detachedOut_outside (Bool.eq_false_of_not_eq_true hin)).1]
      exact PerEye_get_set_same _ _ _
  rw [hwcg, hwin, hwin] at hvtake
  obtain ⟨hleft, hother⟩ := leftTake_ports e w
  rw [hweye] at hleft hother
  have hstays : ¬ (s.cg.rig = .rolling ∧ (s.eye e).state.inTake = true ∧ (s.eye e.other).state.inTake = false) →
      leaveAttached e w = leftTake e w := fun hn => by rw [hvtake, if_neg hn]
  have hdrains : s.cg.rig = .rolling ∧ (s.eye e).state.inTake = true ∧ (s.eye e.other).state.inTake = false →
      leaveAttached e w = enterDraining (leftTake e w) := fun hd => by rw [hvtake, if_pos hd]
  have hdrained : s.cg.rig = .rolling ∧ (s.eye e).state.inTake = true ∧ (s.eye e.other).state.inTake = false →
      (leaveAttached e w).eye e = { (s'.eye e).left with
        buffer := some .halt, fresh := true
        lost := ((leaveAttached e w).eye e).lost, takenFull := ((leaveAttached e w).eye e).takenFull } ∧
      (leaveAttached e w).eye e.other = { s'.eye e.other with
        lost := ((leaveAttached e w).eye e.other).lost, takenFull := ((leaveAttached e w).eye e.other).takenFull
        fresh := true, buffer := some (s.drainDirective e.other)
        txn := (s.eye e.other).txn.map fun x => { x with writeSinceLatch := true } } := fun hd => by
    obtain ⟨hl, hr⟩ := leftTake_drained (s := w) (e := e) (by rw [hwin]; exact hd.2.2)
    rw [drainDirective_congr (s := s) (hwin _) (by rw [hwae]) (by rw [hwae]), hweye, (hport _).2.2.2] at hr
    rw [hweye] at hl
    rw [hdrains hd, hl, hr]
    exact ⟨rfl, rfl⟩
  have hrcg : (leftTake e w).cg = s.cg := by simp [hwcg]
  have hrlts : (leftTake e w).lts = { s.lts with binding := s.lts.binding.set e none } := by
    rw [(leftTake_frame e w).2.2.2.2.1, detachedOut_lts, hwlts]
  have hrlme : (leftTake e w).lme.previous = s.lme.previous.set e (.all none) := by
    rw [(leftTake_frame e w).2.2.2.2.2.1, detachedOut_lme, hwlme]
  have heyeChange : hasNotice (leaveAttached e w).rcp.notices .eyeChange = true := by
    rw [hvrcp]
    exact hasNotice_raise _ _
  have hrtp : (leftTake e w).tp = (detachedOut e w).tp := (leftTake_frame e w).2.2.2.1
  have hfields := enterDraining_fields (leftTake e w)
  have hslots : ∀ k, (enterDraining (leftTake e w)).lts.slot k = ((leftTake e w).lts.slot k).withHeld := fun k => by
    rw [enterDraining_eq, applyPendingOps_slot]
    simp
  generalize leftTake e w = r at *
  generalize leaveAttached e w = v at *
  refine ⟨_, hexec, ?_, fun buffer fresh hbuffer hfresh => ?_, ?_, heyeChange, hvbinding, hvprevious, ?_, fun h => ?_,
    fun hin => ?_, fun hin => ?_, fun drains hD => ⟨fun hn => ?_, fun hyes => ?_⟩⟩
  · refine State.eq_of_fields ?_ rfl (fun _ => rfl) ?_ ?_ ?_ ?_ rfl rfl rfl ?_ ?_
    · exact hvtime.trans (by rw [hw])
    · rw [hvae, hwae]
    · by_cases hin : (w.eye e).state.inTake = true
      · rw [hvtp, (detachedOut_inTake hin).1, hwtp]
      · rw [hvtp, (detachedOut_outside (Bool.eq_false_of_not_eq_true hin)).1, hwtp]
    · rw [hvlts, hwlts]
    · rw [hvlme, hwlme, hwtp]
    · exact hvresets.trans (by rw [hw])
    · exact hvpending.trans (by rw [hw])
  · rw [hbuffer, hfresh]
    by_cases hcond : s.cg.rig = .rolling ∧ (s.eye e).state.inTake = true ∧ (s.eye e.other).state.inTake = false
    · exact EyePort.eq_left_with (hdrained hcond).1
    · rw [hstays hcond]
      exact EyePort.eq_left_with hleft
  · change (v.eye e.other).state = _
    by_cases hcond : s.cg.rig = .rolling ∧ (s.eye e).state.inTake = true ∧ (s.eye e.other).state.inTake = false
    · rw [(hdrained hcond).2]
      exact (hport _).1
    · rw [hstays hcond, hother]
      exact (hport _).1
  · change v.tp.pulses.get e = []
    rw [hvtp]
    exact hpulses
  · have hwsound : w.storeSound := h.congr hwlts (fun e' => by rw [hweye, (hport e').2.1]) (by rw [hwcg]; exact id)
    obtain ⟨-, -, -, -, -, -, hbound⟩ := (hvsound hwsound).form
    exact hbound
  · obtain ⟨hdtp, hlost⟩ := detachedOut_inTake ((congrArg EyeState.inTake (hwin e)).trans hin)
    have hvpulses : v.tp.pulses = (detachedOut e w).tp.pulses := by rw [hvtp]
    refine ⟨hlost.congr hsame ⟨hvpe, hvpq, hvpulses, hvcounts⟩, ?_⟩
    change v.tp.lastReadout = _
    rw [hvtp, hdtp, hwtp]
  · have hwout : (w.eye e).state.inTake = false := (congrArg EyeState.inTake (hwin e)).trans hin
    obtain ⟨hdtp, hdpe, hdpq, -⟩ := detachedOut_outside hwout
    refine ⟨hvpe.trans (hdpe.trans hwpe), hvpq.trans (hdpq.trans hwpq), fun e' => ?_, ?_⟩
    · obtain ⟨hlost, hfull⟩ := detachedOut_counts_outside hwout e'
      obtain ⟨hvlost, hvfull⟩ := hvcounts e'
      rw [hweye] at hlost hfull
      exact ⟨hvlost.trans (hlost.trans (hport e').2.2.1), hvfull.trans hfull⟩
    · change v.tp = _
      rw [hstays (by simp [hin]), hrtp, hdtp, hwtp]
  · rw [hD] at hn
    rw [hstays hn]
    refine ⟨hrcg, by rw [hrlts], (congrArg EyePort.buffer hleft).trans rfl,
      (congrArg EyePort.fresh hleft).trans rfl, hother, ?_, ?_, fun hin => ?_⟩
    · rw [hrlme]
      exact PerEye_get_set_other _ _ _
    · rw [hrlts]
      exact PerEye_get_set_other _ _ _
    · obtain ⟨hdtp, -⟩ := detachedOut_inTake ((congrArg EyeState.inTake (hwin e)).trans hin)
      rw [hwtp] at hdtp
      refine departEye_plansDeparted e ?_ ?_
      · change r.tp.inProgress = _
        rw [hrtp, hdtp]
      · change r.tp.prepared = _
        rw [hrtp, hdtp]
  · rw [hD] at hyes
    obtain ⟨hl, hr⟩ := hdrained hyes
    refine ⟨?_, ?_, ?_, fun k => ?_, (congrArg EyePort.buffer hl).trans rfl,
      (congrArg EyePort.fresh hl).trans rfl, hr⟩
    · change v.cg = _
      rw [hdrains hyes, hfields, hrcg]
      rfl
    · change v.tp.inProgress = none
      rw [hdrains hyes, hfields]
    · change v.tp.prepared = none
      rw [hdrains hyes, hfields]
    · change v.lts.slot k = _
      rw [hdrains hyes, hslots, hrlts]
      rfl

end Sys2Proof.Machine
end

section
/-! PROOFS. What makes a CAPS valid, and a CAPS taken in SETUP (O38). -/

namespace Sys2Proof.Machine

/-! ## The judgement of a CAPS -/

/-- The ranges of 3.3 for one offer, as `capsValid` states them. -/
def offerValid (o : RawOffer) : Prop :=
  o.index.toNat ≤ 5 ∧ o.geometry.toNat ≤ 254 ∧ 1000 ≤ o.normal.toNat ∧ o.normal.toNat ≤ 10000000 ∧
    o.reversedPresent.toNat ≤ 1 ∧
    (o.reversedPresent = 1 → 1000 ≤ o.reversed.toNat ∧ o.reversed.toNat ≤ 10000000) ∧
    o.blank.toNat ≤ 1000000 ∧ 1000 ≤ o.maxRate.toNat ∧ o.maxRate.toNat ≤ 240000

/-- The offer that an offer's record states (R178). -/
def statedOffer (o : RawOffer) : Offer where
  index := o.index.toNat
  mode :=
    { geometry := o.geometry.toNat, normal := o.normal.toNat
      reversed := if o.reversedPresent = 1 then some o.reversed.toNat else none
      blank := o.blank.toNat, maxRate := o.maxRate.toNat }

/-- The CAPS that its record states. -/
def statedCaps (c : RawCaps) : Caps where
  identity := if c.identityPresent = 1 then some c.identity else none
  axes := ⟨c.axes.getLsbD 0, c.axes.getLsbD 1, c.axes.getLsbD 2⟩
  offers := c.offers.map statedOffer

theorem judgeOffer_eq_some_iff (o : RawOffer) (a : Offer) : judgeOffer o = some a ↔ offerValid o ∧ a = statedOffer o := by
  unfold judgeOffer offerValid
  rw [yesNo_eq]
  by_cases hpresent : o.reversedPresent.toNat ≤ 1
  · rw [if_pos hpresent]
    dsimp only
    rw [Option.ite_none_right_eq_some, Option.some.injEq, statedOffer]
    simp only [decide_eq_true_eq, hpresent, true_and, eq_comm (a := a)]
  · rw [if_neg hpresent]
    simp [hpresent]

theorem judgeOffers_eq_some_iff (l : List RawOffer) (offers : List Offer) :
    judgeOffers l = some offers ↔ (∀ o ∈ l, offerValid o) ∧ offers = l.map statedOffer := by
  induction l generalizing offers with
  | nil => simp [judgeOffers, eq_comm]
  | cons o rest ih =>
    rw [judgeOffers]
    constructor
    · intro h
      split at h
      · next a others ha hrest =>
        obtain ⟨hvalid, rfl⟩ := (judgeOffer_eq_some_iff o a).1 ha
        obtain ⟨hothers, rfl⟩ := (ih others).1 hrest
        exact ⟨List.forall_mem_cons.2 ⟨hvalid, hothers⟩, (Option.some.inj h).symm⟩
      · cases h
    · rintro ⟨hvalid, rfl⟩
      obtain ⟨ho, hrest⟩ := List.forall_mem_cons.1 hvalid
      rw [(judgeOffer_eq_some_iff o _).2 ⟨ho, rfl⟩, (ih _).2 ⟨hrest, rfl⟩]
      rfl

theorem stated_index_nodup (l : List RawOffer) :
    ((l.map statedOffer).map Offer.index).Nodup ↔ (l.map RawOffer.index).Nodup := by
  have hinj : Function.Injective (BitVec.toNat : Byte → Nat) := fun _ _ h => BitVec.eq_of_toNat_eq h
  rw [← List.nodup_map_iff (l := l.map RawOffer.index) hinj, List.map_map, List.map_map]
  rfl

/-- A CAPS is valid exactly when its numbers are in range, and is then held as its record states it (R49, R178). -/
theorem judgeCaps_eq_some_iff (raw : RawCaps) (c : Caps) : judgeCaps raw = some c ↔ capsValid raw ∧ c = statedCaps raw := by
  have hnodup := stated_index_nodup raw.offers
  have haxes : axisSetDefined raw.axes = true ↔ raw.axes.toNat ≤ 7 := by
    rw [axisSetDefined, decide_eq_true_eq]
    omega
  unfold judgeCaps capsValid
  rw [yesNo_eq]
  by_cases hpresent : raw.identityPresent.toNat ≤ 1
  · rw [if_pos hpresent]
    by_cases hall : ∀ o ∈ raw.offers, offerValid o
    · rw [(judgeOffers_eq_some_iff raw.offers _).2 ⟨hall, rfl⟩]
      dsimp only
      rw [Option.ite_none_right_eq_some, Option.some.injEq, hnodup, haxes, List.length_map]
      constructor
      · rintro ⟨⟨h1, h2, h3, h4⟩, rfl⟩
        exact ⟨⟨⟨h1, h2⟩, h3, hpresent, h4, hall⟩, by simp [statedCaps, axisSet]⟩
      · rintro ⟨⟨⟨h1, h2⟩, h3, -, h4, -⟩, rfl⟩
        exact ⟨⟨h1, h2, h3, h4⟩, by simp [statedCaps, axisSet]⟩
    · have hnone : judgeOffers raw.offers = none := by
        by_contra h
        obtain ⟨offers, hsome⟩ := Option.ne_none_iff_exists'.1 h
        exact hall ((judgeOffers_eq_some_iff _ _).1 hsome).1
      rw [hnone]
      refine ⟨fun h => (by cases h), fun ⟨⟨_, _, _, _, h⟩, _⟩ => absurd h hall⟩
  · rw [if_neg hpresent]
    simp [hpresent]

/-! ## The CAPS that is held -/

theorem exec_capsTaken {s : State} {e : Eye} {raw : RawCaps} (h : (s.eye e).slot = some (.caps raw)) :
    exec (.capsTaken e) s = .next (takeCaps e raw (emptySlot e s)) := by
  simp only [exec, execCapsTaken, h]

theorem holdCaps_lts_slots (e : Eye) (c : Option Caps) (s : State) : (holdCaps e c s).lts.slots = s.lts.slots := by
  rw [holdCaps, evalBinding_lts]
  rfl

theorem holdCaps_demand (e : Eye) (c : Option Caps) (s : State) : (holdCaps e c s).lme.demand = s.lme.demand := by
  rw [holdCaps, evalBinding_lme]
  rfl

/-- A port with its receive slot emptied and its CAPS replaced. -/
theorem holdCaps_emptySlot_eye (e e' : Eye) (c : Option Caps) (s : State) :
    (holdCaps e c (clearExclusion (emptySlot e s))).eye e' =
      if e' = e then { s.eye e with slot := none, caps := c } else s.eye e' := by
  rw [holdCaps_eye, clearExclusion_eye, clearExclusion_eye, emptySlot_eye, emptySlot_eye, if_pos rfl]
  split <;> rfl

/-! ## A valid CAPS in SETUP -/

/-- A valid CAPS in SETUP runs the choice on the CAPS held, and beside the last readout start changes nothing else. -/
theorem validCapsSetup_eq (e : Eye) (c : Caps) (s : State) :
    validCapsSetup e c s = { runChoice (some e) (holdCaps e (some c) (clearExclusion s)) with
      tp := (validCapsSetup e c s).tp } := by
  unfold validCapsSetup
  dsimp only
  split <;> rfl

/-! ## An invalid CAPS in SETUP -/

theorem partnerWaits_other (e : Eye) (s : State) :
    (partnerWaits e s).eye e.other = s.eye e.other ∧ (partnerWaits e s).ae.reason.get e.other = s.ae.reason.get e.other ∧
      (partnerWaits e s).ae.agreement = s.ae.agreement := by
  unfold partnerWaits
  (repeat' split)
  · obtain ⟨heye, hreason⟩ := waitEye_eye_other e .held .awaitPeer s
    exact ⟨heye, hreason, by rw [waitEye_ae]⟩
  · refine ⟨?_, rfl, rfl⟩
    rw [writeDirective_eye, if_neg (Eye_other_ne e)]
  · exact ⟨rfl, rfl, rfl⟩

/-- The eye of an invalid CAPS listens, without CAPS and unbound (R50). -/
theorem invalidOut_eye (e : Eye) (s : State) :
    (invalidOut e s).waits e .listening .badCaps ∧ ((invalidOut e s).eye e).caps = none ∧
      (invalidOut e s).lts = { s.lts with binding := s.lts.binding.set e none } ∧
      (invalidOut e s).ae = { s.ae with exclusion := [], reason := s.ae.reason.set e .badCaps } := by
  obtain ⟨u, hu⟩ : ∃ u, u = if (s.eye e).state.inTake then departEye e s else s := ⟨_, rfl⟩
  have hae : u.ae = s.ae := by rw [hu]; split <;> simp
  have hlts : u.lts = s.lts := by rw [hu]; split <;> simp
  rw [invalidOut, ← hu]
  refine ⟨⟨?_, ?_⟩, ?_, ?_, ?_⟩
  · obtain ⟨⟨hstate, hbuffer, hfresh⟩, -⟩ := waitEye_waits e .listening .badCaps u
    rw [holdCaps_eye, if_pos rfl, clearExclusion_eye]
    exact ⟨hstate, hbuffer, hfresh⟩
  · obtain ⟨-, hreason⟩ := waitEye_waits e .listening .badCaps u
    simpa [clearExclusion] using hreason
  · rw [holdCaps_eye, if_pos rfl]
  · rw [holdCaps_none_lts]
    simp [hlts]
  · simp [clearExclusion, waitEye_ae, hae]

theorem invalidOut_caps_other (e : Eye) (s : State) : ((invalidOut e s).eye e.other).caps = (s.eye e.other).caps := by
  unfold invalidOut
  rw [holdCaps_eye, if_neg (Eye_other_ne e), clearExclusion_eye, (waitEye_eye_other e _ _ _).1]
  split
  · exact departEye_caps e e.other s
  · rfl

theorem invalidOut_slot (e : Eye) (s : State) : ((invalidOut e s).eye e).slot = (s.eye e).slot := by
  unfold invalidOut
  rw [holdCaps_eye, if_pos rfl, clearExclusion_eye, waitEye_eye, if_pos rfl]
  split
  · change ((departEye e s).eye e).slot = _
    rw [departEye_eye, if_pos rfl]
    split <;> rfl
  · rfl

theorem invalidOut_demand (e : Eye) (s : State) : (invalidOut e s).lme.demand = s.lme.demand := by
  unfold invalidOut
  rw [holdCaps_demand]
  split
  · simp [departEye_lme, LensMatch.clearedFor]
  · simp

theorem invalidCaps_setup {e : Eye} {s : State} (h : s.cg.rig = .setup) :
    invalidCaps e s = partnerWaits e.other (setAgreement none (invalidOut e s)) := by
  rw [invalidCaps_eq, if_pos h]

/-- In SETUP an invalid CAPS removes the agreement record, and a partner with CAPS waits for its peer (R50, R51). -/
theorem invalidCaps_waits {e : Eye} {s : State} (hrig : s.cg.rig = .setup) :
    (invalidCaps e s).waits e .listening .badCaps ∧ ((invalidCaps e s).eye e).caps = none ∧
      ((invalidCaps e s).eye e).slot = ((invalidOut e s).eye e).slot ∧ (invalidCaps e s).ae.agreement = none ∧
      ((s.eye e.other).caps.isSome = true → (invalidCaps e s).waits e.other .held .awaitPeer) := by
  obtain ⟨hwaits, hcaps, -, -⟩ := invalidOut_eye e s
  obtain ⟨heye, hreason, hagreement⟩ := partnerWaits_other e.other (setAgreement none (invalidOut e s))
  rw [Eye_other_other] at heye hreason
  rw [invalidCaps_setup hrig]
  refine ⟨waits_of_eq hwaits heye hreason, ?_, ?_, hagreement, fun hother => ?_⟩
  · rw [heye]
    exact hcaps
  · rw [heye]
    rfl
  · rw [partnerWaits, if_pos]
    · exact waitEye_waits _ _ _ _
    · exact (congrArg Option.isSome (invalidOut_caps_other e s)).trans hother

/-- Settles O38: the CAPS judged, then the choice, the wait for a peer, or the eye in LISTENING. -/
theorem capsTakenInSetup : Obligations.CapsTakenInSetup := by
  intro s e raw hslot hrig
  have hjudge := judgeCaps_eq_some_iff raw
  obtain ⟨u, hu⟩ : ∃ u, u = emptySlot e s := ⟨_, rfl⟩
  have hurig : u.cg.rig = .setup := by rw [hu]; exact hrig
  have huslot : (u.eye e).slot = none := by rw [hu, emptySlot_eye, if_pos rfl]
  have hexec : exec (.capsTaken e) s = .next (takeCaps e raw u) := by rw [exec_capsTaken hslot, hu]
  refine ⟨?_, ?_⟩
  · rw [Option.isSome_iff_exists]
    simp only [hjudge]
    simp
  cases hraw : judgeCaps raw with
  | none =>
    obtain ⟨-, -, hlts, hae⟩ := invalidOut_eye e u
    obtain ⟨hwaits, hcaps, hslot', hagreement, hother⟩ := invalidCaps_waits (e := e) hurig
    have hplaced := (setAgreement_placedAs none (invalidOut e u)).trans (partnerWaits_placedAs e.other _)
    rw [← invalidCaps_setup hurig] at hplaced
    obtain ⟨htime, hcg, hframe, hexclusion, hlts', hlme, -, -⟩ := hplaced.blocks
    have hothercaps : (u.eye e.other).caps = (s.eye e.other).caps := by
      rw [hu, emptySlot_eye, if_neg (Eye_other_ne e)]
    refine ⟨invalidCaps e u, ?_, ?_, ?_, ?_, ?_, ?_, ?_, ?_, fun c hc => (by cases hc), fun _ =>
      ⟨hwaits, hcaps, ?_, hagreement, fun h => hother (by rw [hothercaps]; exact h)⟩⟩
    · rw [hexec, takeCaps, hraw]
    · rw [hslot']
      exact (invalidOut_slot e u).trans huslot
    · rw [hexclusion, hae]
    · rw [hframe, hae, hu]
      rfl
    · rw [hcg, invalidOut_cg, hu]
      rfl
    · rw [htime, hu]
      unfold invalidOut
      split <;> simp [emptySlot]
    · rw [hlts', hlts, hu]
      rfl
    · rw [hlme, invalidOut_demand, hu]
      rfl
    · rw [hlts', hlts]
      exact PerEye_get_set_same _ _ _
  | some c =>
    obtain ⟨hvalid, hstated⟩ := (hjudge c).1 hraw
    obtain ⟨x, hx⟩ : ∃ x, x = holdCaps e (some c) (clearExclusion u) := ⟨_, rfl⟩
    have hxeye : ∀ e', x.eye e' = if e' = e then { s.eye e with slot := none, caps := some c } else s.eye e' := fun e' => by
      rw [hx, hu]
      exact holdCaps_emptySlot_eye e e' (some c) s
    have hxother : x.eye e.other = s.eye e.other := by rw [hxeye, if_neg (Eye_other_ne e)]
    have hxcaps : (x.eye e).caps = some c := by rw [hxeye, if_pos rfl]
    have hxae : x.ae = { s.ae with exclusion := [] } := by rw [hx, hu]; simp [clearExclusion, emptySlot]
    have hplaced := runChoice_placedAs (some e) x
    have hv := validCapsSetup_eq e c u
    have htaken : takeCaps e raw u = validCapsSetup e c u := by
      rw [takeCaps, hraw]
      exact if_pos hurig
    rw [← hx] at hv
    obtain ⟨y, hy⟩ : ∃ y, y = runChoice (some e) x := ⟨_, rfl⟩
    rw [← hy] at hplaced hv
    obtain ⟨htime, hcg, hframe, hexclusion, hlts, hlme, hpe, hpq⟩ := hplaced.blocks
    have hport := hplaced.port
    generalize validCapsSetup e c u = v at *
    have hveye : ∀ e', v.eye e' = y.eye e' := fun e' => by rw [hv]; rfl
    refine ⟨v, ?_, ?_, ?_, ?_, ?_, ?_, ?_, ?_, fun c' hc => ?_, fun h => by cases h⟩
    · rw [hexec, htaken]
    · rw [hveye, (hport e).2.2.1, hxeye, if_pos rfl]
    · rw [hv]
      exact hexclusion.trans (by rw [hxae])
    · rw [hv]
      exact hframe.trans (by rw [hxae])
    · rw [hv]
      exact hcg.trans (by rw [hx, hu]; simp [emptySlot])
    · rw [hv]
      exact htime.trans (by rw [hx, hu]; simp [emptySlot])
    · rw [hv]
      exact (congrArg LensStore.slots hlts).trans (by rw [hx, holdCaps_lts_slots, hu]; rfl)
    · rw [hv]
      exact (congrArg LensMatch.demand hlme).trans (by rw [hx, holdCaps_demand, hu]; rfl)
    · obtain rfl := Option.some.inj hc
      refine ⟨by rw [hstated]; rfl, by rw [hstated]; rfl, ?_, ?_, ?_, ?_, ?_, fun hnone => ?_, fun d hd l r hlr => ?_⟩
      · rw [hstated]
        exact forall₂_map (fun o => ⟨rfl, rfl, rfl, rfl, rfl, rfl⟩) _
      · rw [hveye, (hport e).2.1, hxcaps]
      · rw [hveye, (hport _).2.1, hxother]
      · rw [hv]
        exact hpe.trans (by rw [hx, hu]; simp [emptySlot])
      · rw [hv]
        exact hpq.trans (by rw [hx, hu]; simp [emptySlot])
      · rw [runChoice_alone (some e) (by rw [hxcaps]; rfl) (by rw [hxother, hnone])] at hy
        have hvae : v.ae = (awaitPeer e x).ae := by rw [hv, hy]
        refine ⟨?_, waits_of_eq (awaitPeer_waits e x) (by rw [hveye, hy]) (by rw [hvae]), ?_⟩
        · rw [hvae]
          exact awaitPeer_agreement e x
        · rw [hveye, hy, awaitPeer_eye_other, hxother]
      · have hboth : x.eyes.left.caps = some l ∧ x.eyes.right.caps = some r := by
          rw [← hxother] at hd
          cases e with
          | left =>
            obtain ⟨rfl, rfl⟩ := Prod.mk.inj hlr
            exact ⟨hxcaps, hd⟩
          | right =>
            obtain ⟨rfl, rfl⟩ := Prod.mk.inj hlr
            exact ⟨hd, hxcaps⟩
        have hchoice := runChoice_both (some e) hboth.1 hboth.2
        rw [hxae, ← hy] at hchoice
        refine choicePlaced_congr (s := x) (t := y) ?_ (by rw [hxae]) (fun e' => ?_) (by rw [hv]) (by rw [hv]) hveye
        · rw [hchoice]
          exact placeChoice_choicePlaced (some e) _ x
        · rw [hxeye]
          split
          · next he => rw [he]; exact ⟨rfl, rfl, rfl⟩
          · exact ⟨rfl, rfl, rfl⟩

end Sys2Proof.Machine
end

section
/-! PROOFS. A CAPS taken during a take (O39). -/

namespace Sys2Proof.Machine

/-! ## The rejoin test -/

theorem rejoins_iff (a : Agreement) (e : Eye) (o : Offer) : rejoins a e o = true ↔ o.matchesStored a e := by
  unfold rejoins Offer.matchesStored
  simp only [Bool.and_eq_true, decide_eq_true_eq, and_assoc]

theorem rejoinIndex_eq_none {a : Agreement} {e : Eye} {offers : List Offer} (h : ∀ o ∈ offers, ¬ o.matchesStored a e) :
    rejoinIndex a e offers = none := by
  rw [rejoinIndex, List.filter_eq_nil_iff.2 fun o ho hr => h o ho ((rejoins_iff a e o).1 hr)]
  rfl

theorem rejoinIndex_eq_some {a : Agreement} {e : Eye} {offers : List Offer} {o : Offer} (ho : o ∈ offers)
    (hmatches : o.matchesStored a e) (hleast : ∀ o' ∈ offers, o'.matchesStored a e → o.index ≤ o'.index) :
    rejoinIndex a e offers = some o.index := by
  rw [rejoinIndex, List.min?_eq_some_iff]
  refine ⟨List.mem_map_of_mem (List.mem_filter.2 ⟨ho, (rejoins_iff a e o).2 hmatches⟩), fun k hk => ?_⟩
  obtain ⟨o', ho', rfl⟩ := List.mem_map.1 hk
  obtain ⟨hmem, hr⟩ := List.mem_filter.1 ho'
  exact hleast o' hmem ((rejoins_iff a e o').1 hr)

/-- The rejoin test touches the other eye and the rig control port not at all, and of the planner the eye's pulses alone. -/
theorem rejoinTest_leaves (e : Eye) (c : Caps) (s : State) :
    (rejoinTest e c s).tp = { s.tp with pulses := s.tp.pulses.set e [] } ∧ (rejoinTest e c s).rcp = s.rcp ∧
      (rejoinTest e c s).eye e.other = s.eye e.other := by
  unfold rejoinTest
  (repeat' split)
  · exact ⟨waitEye_tp e _ _ s, by simp, (waitEye_eye_other e _ _ s).1⟩
  · exact ⟨waitEye_tp e _ _ s, by simp, (waitEye_eye_other e _ _ s).1⟩
  · exact ⟨by rw [proposeEye_tp]; rfl, by simp, proposeEye_eye_other e _ _⟩

/-- With no matching offer the eye is held with NO_MATCH (R61). -/
theorem rejoinTest_noMatch {e : Eye} {c : Caps} {s : State}
    (h : s.ae.agreement = none ∨ ∀ a, s.ae.agreement = some a → ∀ o ∈ c.offers, ¬ o.matchesStored a e) :
    rejoinTest e c s = waitEye e .held .noMatch s := by
  unfold rejoinTest
  cases ha : s.ae.agreement with
  | none => rfl
  | some a =>
    rcases h with h | h
    · rw [ha] at h
      cases h
    · dsimp only
      rw [rejoinIndex_eq_none (h a ha)]

/-- The matching offer of lowest index is proposed, and the record then names it (R61). -/
theorem rejoinTest_match {e : Eye} {c : Caps} {s : State} {a : Agreement} {o : Offer} (ha : s.ae.agreement = some a)
    (ho : o ∈ c.offers) (hmatches : o.matchesStored a e)
    (hleast : ∀ o' ∈ c.offers, o'.matchesStored a e → o.index ≤ o'.index) :
    ((rejoinTest e c s).eye e).placed .proposed (.agree o.index (a.reversed.get e)) ∧
      (rejoinTest e c s).ae.agreement = some { a with index := a.index.set e o.index } := by
  have htest : rejoinTest e c s = proposeEye e { a with index := a.index.set e o.index }
      (setAgreement (some { a with index := a.index.set e o.index }) s) := by
    unfold rejoinTest
    rw [ha]
    dsimp only
    rw [rejoinIndex_eq_some ho hmatches hleast]
  rw [htest]
  refine ⟨?_, ?_⟩
  · have h := proposeEye_placed e { a with index := a.index.set e o.index }
      (setAgreement (some { a with index := a.index.set e o.index }) s)
    rwa [show (PerEye.get (a.index.set e o.index) e) = o.index from PerEye_get_set_same _ _ _] at h
  · rw [(proposeEye_frame _ _ _).2.2.1]
    rfl

/-! ## An eye that leaves the take and stays attached -/

/-- `t` is `s` with the eye out of the take: its parts, its last readout start and its previous targets gone, and EYE_CHANGE
raised. -/
def outOfTake (e : Eye) (s t : State) : Prop :=
  partsLost e s t ∧ t.tp.lastReadout = s.tp.lastReadout.set e none ∧ t.lme.previous.get e = .all none ∧
    (s.tp.inProgress.isSome = true → t.lme.clearMark.get e = true)

theorem State.sameParts_refl (s : State) : s.sameParts s := ⟨rfl, rfl, rfl, fun _ => ⟨rfl, rfl⟩⟩

theorem outOfTake.congr {e : Eye} {s s' t t' : State} (h : outOfTake e s t) (hs : s.sameParts s') (htp : s'.tp = s.tp)
    (ht : t.sameParts t') (hreadout : t'.tp.lastReadout = t.tp.lastReadout)
    (hprevious : t'.lme.previous.get e = t.lme.previous.get e) (hmark : t'.lme.clearMark = t.lme.clearMark) :
    outOfTake e s' t' := by
  obtain ⟨hlost, hlast, hcleared, hmarked⟩ := h
  refine ⟨hlost.congr hs ht, ?_, hprevious.trans hcleared, ?_⟩
  · rw [hreadout, hlast, htp]
  · rw [hmark, htp]
    exact hmarked

theorem enterDraining_sameParts (s : State) : s.sameParts (enterDraining s) := by
  refine ⟨?_, ?_, ?_, fun e => ?_⟩
  · rw [enterDraining_fields]
  · rw [enterDraining_fields]
  · rw [enterDraining_fields]
  · rw [enterDraining_eye, EyePort.stopped_eq]
    exact ⟨rfl, rfl⟩

theorem departEye_outOfTake (e : Eye) (s : State) : outOfTake e s (departEye e s) := by
  refine ⟨departEye_partsLost e s, by rw [departEye_tp], ?_, fun h => ?_⟩
  · rw [departEye_lme, clearedFor_eye]
    exact PerEye_get_set_same _ _ _
  · rw [departEye_lme, clearedFor_eye, h]
    exact PerEye_get_set_same _ _ _

/-- Out of the take, the eye's loss is notified, and the rig drains where the other eye is not of the take either (R8). -/
theorem leaveTake_leaves {e : Eye} {s x : State} (hout : outOfTake e s x) (hcg : x.cg = s.cg) (hplans : plansDeparted e s x)
    (hother : (x.eye e.other).state = (s.eye e.other).state) :
    hasNotice (leaveTake e x).rcp.notices .eyeChange = true ∧ outOfTake e s (leaveTake e x) ∧
      ((leaveTake e x).eye e.other).state = (s.eye e.other).state ∧
      (s.cg.rig = .rolling ∧ (s.eye e.other).state.inTake = false →
        (leaveTake e x).cg.rig = .draining ∧ (leaveTake e x).tp.inProgress = none ∧ (leaveTake e x).tp.prepared = none) ∧
      (¬ (s.cg.rig = .rolling ∧ (s.eye e.other).state.inTake = false) →
        (leaveTake e x).cg = s.cg ∧ plansDeparted e s (leaveTake e x)) := by
  have hnotice := hasNotice_raise .eyeChange x
  rw [leaveTake, testLoss, raise_eye, hother, (show (raise .eyeChange x).cg = s.cg from hcg)]
  by_cases h : s.cg.rig = .rolling ∧ (s.eye e.other).state.inTake = false
  · rw [if_pos h]
    have hfields := enterDraining_fields (raise .eyeChange x)
    refine ⟨?_, ?_, ?_, fun _ => ⟨?_, ?_, ?_⟩, fun hn => absurd h hn⟩
    · rw [hfields]
      exact hnotice
    · refine hout.congr s.sameParts_refl rfl (enterDraining_sameParts (raise .eyeChange x)) ?_ ?_
        (enterDraining_store (raise .eyeChange x)).1
      · rw [hfields]
        rfl
      · have hcleared : (raise .eyeChange x).lme.previous.get e = .all none := hout.2.2.1
        exact (enterDraining_cleared hcleared).2.trans hcleared.symm
    · rw [enterDraining_eye, raise_eye, EyePort.stopped_outside (by rw [hother]; exact h.2)]
      exact hother
    · rw [hfields]
      rfl
    · rw [hfields]
    · rw [hfields]
  · rw [if_neg h]
    exact ⟨hnotice, hout, hother, fun hyes => absurd hyes h, fun _ => ⟨hcg, hplans⟩⟩

theorem leaveTake_ae (e : Eye) (s : State) : (leaveTake e s).ae = s.ae := by
  simp [leaveTake]

/-! ## An invalid CAPS -/

theorem invalidOut_lme {e : Eye} {s : State} (h : (s.eye e).state.inTake = true) :
    (invalidOut e s).lme = (departEye e s).lme := by
  rw [invalidOut, if_pos h, departEye_lme]
  refine holdCaps_cleared e none ?_ ?_
  · simp [waitEye_tp, departEye_plan]
  · simp [departEye_lme]

theorem departEye_other_state (e : Eye) (s : State) : ((departEye e s).eye e.other).state = (s.eye e.other).state := by
  rw [departEye_eye, if_neg (Eye_other_ne e)]
  split <;> rfl

theorem departEye_pulses (e : Eye) (s : State) : (departEye e s).tp.pulses.get e = [] := by
  obtain ⟨_, _, -, -, -, -, -, -, hnone, -⟩ := departEye_partsLost e s
  exact hnone

/-- The eye of an invalid CAPS leaves the take with its own state changed, and nothing else of it (R50, R62). -/
theorem invalidOut_tp (e : Eye) (s : State) : (invalidOut e s).tp =
    if (s.eye e).state.inTake then (departEye e s).tp else { s.tp with pulses := s.tp.pulses.set e [] } := by
  unfold invalidOut
  rw [(holdCaps_frame _ _ _).2.2.2.1, (clearExclusion_frame _).2.2.2.1, waitEye_tp, if_neg (by decide)]
  split
  · rw [← departEye_pulses e s, PerEye_set_get]
  · rfl

theorem invalidOut_other (e : Eye) (s : State) : ((invalidOut e s).eye e.other).state = (s.eye e.other).state := by
  unfold invalidOut
  rw [holdCaps_eye, if_neg (Eye_other_ne e), clearExclusion_eye, (waitEye_eye_other e _ _ _).1]
  split
  · exact departEye_other_state e s
  · rfl

theorem departEye_plans (e : Eye) {s t : State} (h : t.tp = (departEye e s).tp) : plansDeparted e s t := by
  rw [departEye_tp] at h
  exact departEye_plansDeparted e (by rw [h]) (by rw [h])

theorem invalidOut_sameParts (e : Eye) {s : State} (h : (s.eye e).state.inTake = true) :
    (departEye e s).sameParts (invalidOut e s) := by
  have htp := invalidOut_tp e s
  rw [if_pos h] at htp
  refine ⟨?_, ?_, by rw [htp], fun e' => ?_⟩
  · simp [invalidOut, h]
  · simp [invalidOut, h]
  · rw [invalidOut, if_pos h, holdCaps_eye, clearExclusion_eye, clearExclusion_eye, waitEye_eye, waitEye_eye, if_pos rfl]
    split
    · next he => rw [he]; exact ⟨rfl, rfl⟩
    · exact ⟨rfl, rfl⟩

theorem invalidOut_outOfTake {e : Eye} {s : State} (h : (s.eye e).state.inTake = true) : outOfTake e s (invalidOut e s) := by
  have htp := invalidOut_tp e s
  rw [if_pos h] at htp
  exact (departEye_outOfTake e s).congr s.sameParts_refl rfl (invalidOut_sameParts e h) (by rw [htp])
    (by rw [invalidOut_lme h]) (by rw [invalidOut_lme h])

/-- The eye of an invalid CAPS listens with BAD_CAPS after the loss of the take too (R50, R64). -/
theorem leaveTake_listening {e : Eye} {s : State} (h : s.waits e .listening .badCaps) (hcaps : (s.eye e).caps = none)
    (hbinding : s.lts.binding.get e = none) :
    (leaveTake e s).waits e .listening .badCaps ∧ ((leaveTake e s).eye e).caps = none ∧
      (leaveTake e s).lts.binding.get e = none ∧ ((leaveTake e s).eye e).slot = (s.eye e).slot := by
  obtain ⟨⟨hstate, hbuffer, hfresh⟩, hreason⟩ := h
  unfold leaveTake testLoss
  split
  · obtain ⟨r, hr⟩ : ∃ r, r = raise .eyeChange s := ⟨_, rfl⟩
    have hre : r.eye e = s.eye e := by rw [hr]; rfl
    have hrae : r.ae = s.ae := by rw [hr]; rfl
    rw [← hr]
    have howed : r.drainDirective e = .wait .badCaps := by
      rw [State.drainDirective, hre, hstate, hrae, hreason]
    have heye := enterDraining_eye r e
    rw [howed, hre, EyePort.stopped_outside (by rw [hstate]; rfl)] at heye
    refine ⟨⟨?_, ?_⟩, ?_, ?_, ?_⟩
    · rw [heye]
      exact ⟨hstate, rfl, rfl⟩
    · rw [(enterDraining_frame r).2.1, hrae]
      exact hreason
    · rw [heye]
      exact hcaps
    · exact (enterDraining_unbound (by rw [hre]; exact hcaps) (by rw [hr]; exact hbinding)).2
    · rw [heye]
      rfl
  · exact ⟨⟨⟨hstate, hbuffer, hfresh⟩, hreason⟩, hcaps, hbinding, rfl⟩

/-! ## A valid CAPS -/

/-- The eye of a valid CAPS, out of the take and held (R61). -/
def heldOut (e : Eye) (c : Caps) (s : State) : State :=
  setEyeState e .held (departEye e (holdCaps e (some c) (clearExclusion s)))

theorem rejoinOut_inTake {e : Eye} {s : State} (c : Caps) (h : (s.eye e).state.inTake = true) :
    rejoinOut e c s = leaveTake e (heldOut e c s) := if_pos h

theorem heldOut_tp (e : Eye) (c : Caps) (s : State) :
    (heldOut e c s).tp = (departEye e (holdCaps e (some c) (clearExclusion s))).tp := by
  rw [heldOut, setEyeState_tp, if_neg (by decide), ← departEye_pulses e, PerEye_set_get]

theorem holdCaps_sameParts (e : Eye) (c : Option Caps) (s : State) : (holdCaps e c (clearExclusion s)).sameParts s := by
  refine ⟨by simp, by simp, by simp, fun e' => ?_⟩
  rw [holdCaps_eye, clearExclusion_eye, clearExclusion_eye]
  split
  · next he => rw [he]; exact ⟨rfl, rfl⟩
  · exact ⟨rfl, rfl⟩

theorem heldOut_outOfTake (e : Eye) (c : Caps) (s : State) :
    outOfTake e s (heldOut e c s) ∧ plansDeparted e s (heldOut e c s) ∧
      ((heldOut e c s).eye e.other).state = (s.eye e.other).state := by
  have htp := heldOut_tp e c s
  have hbtp : (holdCaps e (some c) (clearExclusion s)).tp = s.tp := by simp
  have hbother : (holdCaps e (some c) (clearExclusion s)).eye e.other = s.eye e.other := by
    rw [holdCaps_eye, if_neg (Eye_other_ne e), clearExclusion_eye]
  have hsame := holdCaps_sameParts e (some c) s
  have hout : heldOut e c s = setEyeState e .held (departEye e (holdCaps e (some c) (clearExclusion s))) := rfl
  generalize holdCaps e (some c) (clearExclusion s) = b at *
  refine ⟨(departEye_outOfTake e b).congr hsame hbtp.symm ⟨?_, ?_, by rw [htp], fun e' => ?_⟩ (by rw [htp]) ?_ ?_, ?_, ?_⟩
  · rw [hout]; simp
  · rw [hout]; simp
  · rw [hout, setEyeState_eye]
    split
    · next he => rw [he]; exact ⟨rfl, rfl⟩
    · exact ⟨rfl, rfl⟩
  · rw [hout]; simp
  · rw [hout]; simp
  · have hplans := departEye_plans e htp
    unfold plansDeparted at *
    rw [hbtp] at hplans
    exact hplans
  · rw [hout, setEyeState_eye, if_neg (Eye_other_ne e), departEye_other_state, hbother]

/-! ## Every CAPS taken during a take -/

/-- What a CAPS taken during a take does to the take, whatever its judgement. -/
def capsTook (e : Eye) (s t : State) : Prop :=
  (t.eye e).slot = (s.eye e).slot ∧ t.ae.exclusion = [] ∧ t.ae.frame = s.ae.frame ∧
    ((s.eye e).state.inTake = true →
      hasNotice t.rcp.notices .eyeChange = true ∧ outOfTake e s t ∧
      (s.cg.rig = .rolling ∧ (s.eye e.other).state.inTake = false →
        t.cg.rig = .draining ∧ t.tp.inProgress = none ∧ t.tp.prepared = none) ∧
      (¬ (s.cg.rig = .rolling ∧ (s.eye e.other).state.inTake = false) → t.cg = s.cg ∧ plansDeparted e s t)) ∧
    ((s.eye e).state.inTake = false →
      t.pe = s.pe ∧ t.pq = s.pq ∧ t.tp = { s.tp with pulses := s.tp.pulses.set e [] } ∧ t.cg = s.cg) ∧
    (t.eye e.other).state = (s.eye e.other).state

theorem invalidCaps_during {e : Eye} {s : State} (h : s.cg.rig ≠ .setup) :
    invalidCaps e s = if (s.eye e).state.inTake then leaveTake e (invalidOut e s) else invalidOut e s := by
  rw [invalidCaps_eq, if_neg h]

theorem invalidCaps_capsTook {e : Eye} {s : State} (h : s.cg.rig ≠ .setup) : capsTook e s (invalidCaps e s) := by
  obtain ⟨hwaits, hcaps, hlts, hae⟩ := invalidOut_eye e s
  have hbinding : (invalidOut e s).lts.binding.get e = none := by
    rw [hlts]
    exact PerEye_get_set_same _ _ _
  have hslot := invalidOut_slot e s
  rw [invalidCaps_during h]
  by_cases hin : (s.eye e).state.inTake = true
  · have htp := invalidOut_tp e s
    rw [if_pos hin] at htp
    obtain ⟨hnotice, hout, hother, hdrains, hstays⟩ := leaveTake_leaves (invalidOut_outOfTake hin) (invalidOut_cg e s)
      (departEye_plans e htp) (invalidOut_other e s)
    rw [if_pos hin]
    refine ⟨(leaveTake_listening hwaits hcaps hbinding).2.2.2.trans hslot, ?_, ?_,
      fun _ => ⟨hnotice, hout, hdrains, hstays⟩, fun hn => absurd hin (by rw [hn]; decide), hother⟩
    · rw [leaveTake_ae, hae]
    · rw [leaveTake_ae, hae]
  · have htp := invalidOut_tp e s
    rw [if_neg hin] at htp
    rw [if_neg hin]
    refine ⟨hslot, by rw [hae], by rw [hae], fun hyes => absurd hyes hin, fun _ => ⟨?_, ?_, htp, invalidOut_cg e s⟩,
      invalidOut_other e s⟩
    · simp [invalidOut, hin]
    · simp [invalidOut, hin]

theorem rejoinOut_ae (e : Eye) (c : Caps) (s : State) : (rejoinOut e c s).ae = { s.ae with exclusion := [] } := by
  unfold rejoinOut
  split
  · rw [leaveTake_ae]
    simp [clearExclusion]
  · simp [clearExclusion]

theorem heldOut_port (e : Eye) (c : Caps) (s : State) :
    ((heldOut e c s).eye e).caps = some c ∧ ((heldOut e c s).eye e).slot = (s.eye e).slot := by
  rw [heldOut, setEyeState_eye, if_pos rfl, departEye_eye, if_pos rfl, holdCaps_eye, if_pos rfl, clearExclusion_eye]
  split <;> exact ⟨rfl, rfl⟩

theorem leaveTake_port (e e' : Eye) (s : State) :
    ((leaveTake e s).eye e').caps = (s.eye e').caps ∧ ((leaveTake e s).eye e').slot = (s.eye e').slot := by
  unfold leaveTake testLoss
  split
  · rw [enterDraining_eye, EyePort.stopped_eq]
    exact ⟨rfl, rfl⟩
  · exact ⟨rfl, rfl⟩

theorem rejoinOut_port (e : Eye) (c : Caps) (s : State) :
    ((rejoinOut e c s).eye e).caps = some c ∧ ((rejoinOut e c s).eye e).slot = (s.eye e).slot := by
  by_cases hin : (s.eye e).state.inTake = true
  · obtain ⟨hcaps, hslot⟩ := heldOut_port e c s
    obtain ⟨hkept, hkept'⟩ := leaveTake_port e e (heldOut e c s)
    rw [rejoinOut_inTake c hin]
    exact ⟨hkept.trans hcaps, hkept'.trans hslot⟩
  · rw [rejoinOut, if_neg hin, holdCaps_eye, if_pos rfl]
    exact ⟨rfl, rfl⟩

theorem validCapsTake_capsTook (e : Eye) (c : Caps) (s : State) : capsTook e s (validCapsTake e c s) := by
  have hae := rejoinOut_ae e c s
  obtain ⟨htp, hrcp, hother⟩ := rejoinTest_leaves e c (rejoinOut e c s)
  have hplaced := rejoinTest_placedAs e c (rejoinOut e c s)
  obtain ⟨-, hcg, hframe, hexclusion, -, hlme, hpe, hpq⟩ := hplaced.blocks
  have hport := hplaced.port
  rw [validCapsTake_eq]
  refine ⟨?_, ?_, ?_, fun hin => ?_, fun hin => ?_, ?_⟩
  · rw [(hport e).2.2.1]
    exact (rejoinOut_port e c s).2
  · rw [hexclusion, hae]
  · rw [hframe, hae]
  · obtain ⟨hheld, hplans, hstate⟩ := heldOut_outOfTake e c s
    have hheldcg : (heldOut e c s).cg = s.cg := by simp [heldOut]
    obtain ⟨hnotice, hout, -, hdrains, hstays⟩ := leaveTake_leaves hheld hheldcg hplans hstate
    rw [← rejoinOut_inTake c hin] at hnotice hout hdrains hstays
    obtain ⟨_, _, -, -, -, -, -, -, hnone, -⟩ := hout.1
    rw [← hnone, PerEye_set_get] at htp
    refine ⟨by rw [hrcp]; exact hnotice, hout.congr s.sameParts_refl rfl ⟨hpe, hpq, by rw [htp], fun e' => ?_⟩ (by rw [htp])
      (by rw [hlme]) (by rw [hlme]), ?_, ?_⟩
    · exact ⟨(hport e').2.2.2.1, (hport e').2.2.2.2⟩
    · rw [hcg, htp]
      exact hdrains
    · unfold plansDeparted at *
      rw [hcg, htp]
      exact hstays
  · have hout : rejoinOut e c s = holdCaps e (some c) (clearExclusion s) := if_neg (by rw [hin]; decide)
    rw [hpe, hpq, hcg, htp, hout]
    simp
  · rw [hother]
    by_cases hin : (s.eye e).state.inTake = true
    · obtain ⟨hheld, hplans, hstate⟩ := heldOut_outOfTake e c s
      rw [rejoinOut_inTake c hin]
      exact (leaveTake_leaves hheld (by simp [heldOut]) hplans hstate).2.2.1
    · rw [rejoinOut, if_neg hin, holdCaps_eye, if_neg (Eye_other_ne e), clearExclusion_eye]

theorem emptySlot_sameParts (e : Eye) (s : State) : (emptySlot e s).sameParts s := by
  refine ⟨rfl, rfl, rfl, fun e' => ?_⟩
  rw [emptySlot_eye]
  split
  · next he => rw [he]; exact ⟨rfl, rfl⟩
  · exact ⟨rfl, rfl⟩

/-- Settles O39: what the CAPS does to the take, then its judgement. -/
theorem capsTakenDuringTake : Obligations.CapsTakenDuringTake := by
  intro s e raw hslot hrig
  obtain ⟨u, hu⟩ : ∃ u, u = emptySlot e s := ⟨_, rfl⟩
  have hurig : u.cg.rig ≠ .setup := by rw [hu]; exact hrig
  have huslot : (u.eye e).slot = none := by rw [hu, emptySlot_eye, if_pos rfl]
  have hexec : exec (.capsTaken e) s = .next (takeCaps e raw u) := by rw [exec_capsTaken hslot, hu]
  have hstate : ∀ e', (u.eye e').state = (s.eye e').state := fun e' => by
    rw [hu, emptySlot_eye]
    split
    · next he => rw [he]
    · rfl
  have htaken : capsTook e u (takeCaps e raw u) := by
    rw [takeCaps]
    split
    · exact invalidCaps_capsTook hurig
    · rw [if_neg hurig]
      exact validCapsTake_capsTook e _ u
  have hutp : u.tp = s.tp := by rw [hu]; rfl
  have hucg : u.cg = s.cg := by rw [hu]; rfl
  have huae : u.ae = s.ae := by rw [hu]; rfl
  have hsame : u.sameParts s := by rw [hu]; exact emptySlot_sameParts e s
  obtain ⟨htslot, hexclusion, hframe, hin, hout, hother⟩ := htaken
  rw [hstate, hstate, hucg] at hin
  rw [hstate, hucg] at hout
  refine ⟨takeCaps e raw u, hexec, htslot.trans huslot, hexclusion, hframe.trans (by rw [huae]), fun h => ?_, fun h => ?_,
    hother.trans (hstate _), fun drains hD => ⟨fun hyes => ?_, fun hn => ⟨?_, fun h => ?_⟩⟩, fun hraw => ?_, fun c hraw => ?_⟩
  · obtain ⟨hnotice, hleft, -, -⟩ := hin h
    obtain ⟨hlost, hreadout, hcleared, hmark⟩ := hleft.congr hsame hutp.symm (State.sameParts_refl _) rfl rfl rfl
    exact ⟨hnotice, hlost, hreadout, hcleared, hmark⟩
  · obtain ⟨hpe, hpq, htp, -⟩ := hout h
    refine ⟨hpe.trans ?_, hpq.trans ?_, ?_⟩
    · rw [hu]; rfl
    · rw [hu]; rfl
    · rw [htp, hutp]
  · rw [hD] at hyes
    exact (hin hyes.2.1).2.2.1 ⟨hyes.1, hyes.2.2⟩
  · rw [hD] at hn
    by_cases h : (s.eye e).state.inTake = true
    · exact ((hin h).2.2.2 fun hyes => hn ⟨hyes.1, h, hyes.2⟩).1
    · exact (hout (Bool.eq_false_of_not_eq_true h)).2.2.2
  · rw [hD] at hn
    have hplans := ((hin h).2.2.2 fun hyes => hn ⟨hyes.1, h, hyes.2⟩).2
    unfold plansDeparted at *
    rw [hutp] at hplans
    exact hplans
  · have ht : takeCaps e raw u = invalidCaps e u := by rw [takeCaps, hraw]
    obtain ⟨hwaits, hcaps, hlts, hae⟩ := invalidOut_eye e u
    have hbinding : (invalidOut e u).lts.binding.get e = none := by
      rw [hlts]
      exact PerEye_get_set_same _ _ _
    rw [ht, invalidCaps_during hurig]
    by_cases h : (u.eye e).state.inTake = true
    · obtain ⟨hw, hc, hb, -⟩ := leaveTake_listening hwaits hcaps hbinding
      rw [if_pos h]
      exact ⟨hw, hc, hb, by rw [leaveTake_ae, hae, huae]⟩
    · rw [if_neg h]
      exact ⟨hwaits, hcaps, hbinding, by rw [hae, huae]⟩
  · have ht : takeCaps e raw u = rejoinTest e c (rejoinOut e c u) := by
      rw [takeCaps, hraw]
      exact if_neg hurig
    have hragreement : (rejoinOut e c u).ae.agreement = s.ae.agreement := by rw [rejoinOut_ae, huae]
    rw [ht, ← hragreement]
    refine ⟨?_, fun hnone => ?_, fun a o ha ho hmatches hleast => rejoinTest_match ha ho hmatches hleast⟩
    · rw [((rejoinTest_placedAs e c _).port e).2.1]
      exact (rejoinOut_port e c u).1
    · rw [rejoinTest_noMatch hnone]
      exact ⟨waitEye_waits _ _ _ _, by rw [waitEye_ae]⟩

end Sys2Proof.Machine
end

section
/-! PROOFS. A rolling mark with its plan prepared (O22). -/

namespace Sys2Proof.Machine

/-! ## What the stages of the mark leave -/

theorem joinEye_eye (p : Plan) (e e' : Eye) (s : State) :
    (joinEye p e s).eye e' = if e' = e ∧ s.joins p e = true then { s.eye e with state := .running } else s.eye e' := by
  unfold joinEye State.joins Plan.serves
  by_cases h : (p.included.get e && !p.departed.get e && decide ((s.eye e).state = .agreed)) = true
  · rw [if_pos h, State.mapTp_eye, setEyeState_eye]
    simp only [h, and_true]
    rfl
  · rw [if_neg h, if_neg fun hn => h hn.2]

theorem joinEye_tp (p : Plan) (e : Eye) (s : State) : (joinEye p e s).tp = { s.tp with
    triggerNumber := if s.joins p e then s.tp.triggerNumber.set e 0 else s.tp.triggerNumber } := by
  unfold joinEye State.joins Plan.serves
  split
  · simp [setEyeState_tp]
  · rfl

/-- Laying a pulse schedules it or fires it, and sets the last readout start (R67, R85). -/
theorem layPulse_tp (p : Plan) (e : Eye) (number : MarkNumber) (s : State) : (layPulse p e number s).tp = { s.tp with
    pulses := (layPulse p e number s).tp.pulses
    triggerNumber := (layPulse p e number s).tp.triggerNumber
    lastReadout := if p.lays e then
      s.tp.lastReadout.set e (some (after (p.pulseTime e s.timebase) p.exposure)) else s.tp.lastReadout } := by
  unfold layPulse Plan.lays Plan.serves
  dsimp only
  split
  · split
    · rw [firePulse_tp]
      rfl
    · rfl
  · rfl

theorem layPulse_state (p : Plan) (e e' : Eye) (number : MarkNumber) (s : State) :
    ((layPulse p e number s).eye e').state = (s.eye e').state := by
  unfold layPulse
  dsimp only
  (repeat' split)
  · rw [firePulse_eye]
    split
    · next he => rw [he]; rfl
    · rfl
  · rfl
  · rfl

theorem openWindow_tp (slot : PairSlot) (s : State) :
    (openWindow slot s).tp = { s.tp with pulses := (openWindow slot s).tp.pulses } := by
  unfold openWindow retire
  rw [retireFrom_tp]
  rfl

theorem retire_state (s : State) (e : Eye) : ((retire s).eye e).state = (s.eye e).state := by
  rw [retire, retireFrom_port]
  split <;> rfl

theorem ageWindow_state (s : State) (e : Eye) : ((ageWindow s).eye e).state = (s.eye e).state := by
  rw [ageWindow_eye]

theorem joins_congr {p : Plan} {s u : State} {e : Eye} (h : (u.eye e).state = (s.eye e).state) : u.joins p e = s.joins p e := by
  rw [State.joins, State.joins, h]

/-- Both eyes of the plan join: each that was AGREED is RUNNING with trigger number 0 (R78, R84). -/
theorem joinBoth_fields (p : Plan) (s : State) (e : Eye) :
    (joinEye p .right (joinEye p .left s)).eye e =
        (if s.joins p e = true then { s.eye e with state := .running } else s.eye e) ∧
      (joinEye p .right (joinEye p .left s)).tp.triggerNumber.get e =
        if s.joins p e = true then 0 else s.tp.triggerNumber.get e := by
  have hright : (joinEye p .left s).eye .right = s.eye .right := by
    rw [joinEye_eye, if_neg (by simp)]
  have hjoins : (joinEye p .left s).joins p .right = s.joins p .right := joins_congr (by rw [hright])
  rw [joinEye_eye, joinEye_tp, joinEye_tp, hjoins, hright]
  cases e with
  | left =>
    rw [if_neg (by simp), joinEye_eye]
    refine ⟨by simp, ?_⟩
    dsimp only
    split <;> split <;> rfl
  | right =>
    refine ⟨by simp [hright], ?_⟩
    dsimp only
    split <;> split <;> rfl

/-- The eyes once the served ones have joined. -/
theorem rollMarkJoined_eye (m : Time) (p : Plan) (s : State) (e : Eye) :
    (rollMarkJoined m p s).eye e =
        (if s.joins p e = true then { (ageWindow s).eye e with state := .running } else (ageWindow s).eye e) ∧
      (rollMarkJoined m p s).tp.triggerNumber.get e = s.nextTrigger p e := by
  obtain ⟨heye, htrigger⟩ := joinBoth_fields p (ageWindow (s.mapCg (Cadence.numberMark m s.timebase))) e
  rw [ageWindow_mapCg] at heye htrigger
  have hjoins : ((ageWindow s).mapCg (Cadence.numberMark m s.timebase)).joins p e = s.joins p e :=
    joins_congr (ageWindow_state s e)
  rw [hjoins] at heye htrigger
  rw [rollMarkJoined, ageWindow_mapCg]
  refine ⟨heye, htrigger.trans ?_⟩
  rw [State.nextTrigger, State.mapCg_tp, ageWindow_tp]

/-- The eyes' states after the mark: the served AGREED ones are RUNNING. -/
theorem rollMarkLaid_state (m : Time) (p : Plan) (s : State) (e : Eye) :
    ((rollMarkLaid m p s).eye e).state = if s.joins p e = true then .running else (s.eye e).state := by
  rw [rollMarkLaid, layPulse_state, layPulse_state, rollMarkOpened, openWindow, retire_state, State.mapPe_eye,
    (rollMarkJoined_eye m p s e).1, ← ageWindow_state]
  split <;> rfl

theorem rollMarkOpened_tp (m : Time) (p : Plan) (s : State) : (rollMarkOpened m p s).tp = { s.tp with
    pulses := (rollMarkOpened m p s).tp.pulses, triggerNumber := (rollMarkJoined m p s).tp.triggerNumber } := by
  unfold rollMarkOpened
  rw [openWindow_tp]
  unfold rollMarkJoined
  rw [joinEye_tp, joinEye_tp, ageWindow_tp, State.mapCg_tp]

/-- The planner after the mark's pulses (R67, R85). -/
theorem rollMarkLaid_tp (m : Time) (p : Plan) (s : State) :
    (rollMarkLaid m p s).tp = { s.tp with
      pulses := (rollMarkLaid m p s).tp.pulses
      triggerNumber := (rollMarkLaid m p s).tp.triggerNumber
      lastReadout := (rollMarkLaid m p s).tp.lastReadout } ∧
    ∀ e, (rollMarkLaid m p s).tp.lastReadout.get e =
      if p.lays e then some (after (p.pulseTime e s.timebase) p.exposure) else s.tp.lastReadout.get e := by
  have htime : (rollMarkOpened m p s).timebase = s.timebase := by simp [rollMarkOpened, rollMarkJoined]
  have hopened := rollMarkOpened_tp m p s
  unfold rollMarkLaid
  generalize rollMarkOpened m p s = o at *
  have hleft := layPulse_tp p .left s.cg.markCounter o
  have hright := layPulse_tp p .right s.cg.markCounter (layPulse p .left s.cg.markCounter o)
  have htime' : (layPulse p .left s.cg.markCounter o).timebase = s.timebase := by simp [htime]
  refine ⟨?_, fun e => ?_⟩
  · rw [hright, hleft, hopened]
  · rw [hright, hleft, hopened, htime', htime]
    cases e
    · dsimp only
      split <;> split <;> rfl
    · dsimp only
      split <;> split <;> rfl

theorem rollMarkLaid_frame (m : Time) (p : Plan) (s : State) :
    (rollMarkLaid m p s).timebase = s.timebase ∧ (rollMarkLaid m p s).cg = s.cg.numberMark m s.timebase ∧
      (rollMarkLaid m p s).ae = s.ae ∧ (rollMarkLaid m p s).lts = s.lts ∧ (rollMarkLaid m p s).lme = s.lme := by
  simp [rollMarkLaid, rollMarkOpened, rollMarkJoined]

/-! ## The mark and its next plan -/

/-- With no plan in progress, the mark is that of the prepared plan. -/
theorem rollingMarkEvent_prepared {m : Time} {s : State} {p : Plan} (hnone : s.tp.inProgress = none)
    (hprepared : s.tp.prepared = some p) : rollingMarkEvent m s =
      planStart ((rollMarkLaid m p (waitUntil m s)).mapTp fun t => { t with prepared := none }) := by
  obtain ⟨-, -, htp, -⟩ := waitUntil_frame m s
  have hidle : completePlan (waitUntil m s) = waitUntil m s := by
    rw [completePlan, htp, hnone]
  unfold rollingMarkEvent
  dsimp only
  rw [hidle, htp, hprepared]
  exact rollMark_eq m p (waitUntil m s)

theorem numberMark_eq (m now : Time) (c : Cadence) : c.numberMark m now = { c with
    markCounter := c.markCounter + 1, lastMark := some (c.markCounter, now)
    lock := (c.passMark m (some c.markCounter)).lock, window := (c.passMark m (some c.markCounter)).window
    nextMark := (c.passMark m (some c.markCounter)).nextMark } := by
  have hpass := passMark_eq m (some c.markCounter) c
  unfold Cadence.numberMark
  generalize c.passMark m (some c.markCounter) = d at *
  rw [hpass]

theorem waitUntil_timebase {m : Time} {s : State} (h : s.isHeld = false) :
    (waitUntil m s).timebase = s.timebase + BitVec.ofNat 48 (ticksUntil s.timebase m) := by
  unfold waitUntil advance
  dsimp only
  rw [h]
  rfl

/-! ## The mark's slot and its pulses -/

theorem lays_iff (p : Plan) (e : Eye) : (p.serves e && !p.skipped) = p.lays e := rfl

/-- What laying an eye's pulse does: it is scheduled, or fires at the mark (R85, R86, R134). -/
theorem layPulse_fields {p : Plan} {e : Eye} {number : MarkNumber} {s : State}
    (hin : p.lays e = true → (s.eye e).state.inTake = true)
    (hnew : p.lays e = true → ∀ q ∈ s.tp.pulses.get e, q.mark ≠ number) :
    (layPulse p e number s).tp.pulses.get e = s.tp.pulses.get e ++
        (if p.lays e && !p.firesAtMark e then [⟨number, p.pulseTime e s.timebase⟩] else []) ∧
      (layPulse p e number s).tp.triggerNumber.get e =
        (if p.firesAtMark e then s.tp.triggerNumber.get e + 1 else s.tp.triggerNumber.get e) ∧
      (layPulse p e number s).pe.triggers.get e = s.pe.triggers.get e ++
        (if p.firesAtMark e then [⟨s.tp.triggerNumber.get e, number⟩] else []) ∧
      (layPulse p e number s).pe.window = (if p.firesAtMark e then
        s.pe.window.map fun slot => if slot.mark = number then
          slot.mapPart e (EyePart.fire (s.tp.triggerNumber.get e)) else slot
        else s.pe.window) ∧
      ((layPulse p e number s).eye e).trig = if p.firesAtMark e then some s.timebase else (s.eye e).trig := by
  unfold layPulse
  dsimp only
  rw [lays_iff]
  by_cases hlays : p.lays e = true
  · rw [if_pos hlays]
    have hstate := hin hlays
    have hfresh : (⟨number, p.pulseTime e s.timebase⟩ : Pulse) ∉ s.tp.pulses.get e := fun hmem => hnew hlays _ hmem rfl
    by_cases hzero : p.slip + p.offset.get e = 0
    · have hfires : p.firesAtMark e = true := by rw [Plan.firesAtMark, hlays, decide_eq_true hzero]; rfl
      rw [if_pos ⟨hzero, hstate⟩, firePulse_pe, firePulse_tp, firePulse_eye, hfires, if_pos rfl]
      simp only [Bool.not_true, Bool.and_false, Bool.false_eq_true, if_false, List.append_nil, State.mapTp_tp, PerEye_get_set_same,
        if_true, and_true]
      refine ⟨?_, trivial, rfl, rfl, rfl⟩
      rw [List.erase_append_right _ hfresh]
      simp
    · have hfires : p.firesAtMark e = false := by rw [Plan.firesAtMark, decide_eq_false hzero, Bool.and_false]
      rw [if_neg fun h => hzero h.1, hfires, hlays]
      refine ⟨PerEye_get_set_same _ _ _, rfl, (List.append_nil _).symm, rfl, rfl⟩
  · have hfires : p.firesAtMark e = false := by
      rw [Plan.firesAtMark, Bool.eq_false_of_not_eq_true hlays, Bool.false_and]
    rw [if_neg hlays, hfires, Bool.eq_false_of_not_eq_true hlays]
    exact ⟨(List.append_nil _).symm, rfl, (List.append_nil _).symm, rfl, rfl⟩

/-- Laying one eye's pulse leaves the other eye. -/
theorem layPulse_other {p : Plan} {e e' : Eye} (hne : e' ≠ e) (number : MarkNumber) (s : State) :
    (layPulse p e number s).tp.pulses.get e' = s.tp.pulses.get e' ∧
      (layPulse p e number s).tp.triggerNumber.get e' = s.tp.triggerNumber.get e' ∧
      (layPulse p e number s).pe.triggers.get e' = s.pe.triggers.get e' ∧
      (layPulse p e number s).eye e' = s.eye e' := by
  unfold layPulse
  dsimp only
  (repeat' split)
  · rw [firePulse_pe, firePulse_tp, firePulse_eye, if_neg hne]
    simp [PerEye_get_set, hne]
  · simp [PerEye_get_set, hne]
  · exact ⟨rfl, rfl, rfl, rfl⟩

/-- The slot of a mark before its pulses are laid. -/
def slotBefore (plan : Plan) (s : State) : PairSlot :=
  s.openSlot plan s.cg.markCounter s.cg.inHoldover s.cg.lock.stepOwed

/-- The slot of a mark with the pulses fired that fire at the mark. -/
def slotAfter (plan : Plan) (s : State) : PairSlot :=
  { slotBefore plan s with parts := ⟨s.openedPart plan .left, s.openedPart plan .right⟩ }

/-- The part of an eye as it stands after the mark's pulses (R134). -/
theorem openedPart_eq (plan : Plan) (s : State) (e : Eye) : s.openedPart plan e =
    if plan.firesAtMark e then (plan.openPart e).fire (s.nextTrigger plan e) else plan.openPart e := by
  unfold State.openedPart Plan.firesAtMark
  generalize plan.slip + plan.offset.get e = wait
  by_cases hlays : plan.lays e = true
  · obtain ⟨hincluded, hdeparted, hskipped⟩ : plan.included.get e = true ∧ plan.departed.get e = false ∧ plan.skipped = false := by
      simpa [Plan.lays, and_assoc] using hlays
    by_cases hzero : wait = 0 <;>
      simp [hlays, hzero, Plan.openPart, EyePart.fire, hincluded, hdeparted, hskipped]
  · have hnot : plan.included.get e = true → plan.departed.get e = false → plan.skipped = true := fun hincluded hdeparted => by
      simpa [Plan.lays, hincluded, hdeparted] using hlays
    cases hincluded : plan.included.get e
    · simp [hlays, Plan.openPart, hincluded]
    · cases hskipped : plan.skipped
      · have hdeparted : plan.departed.get e = true := by
          by_contra hd
          have := hnot hincluded (Bool.eq_false_of_not_eq_true hd)
          rw [hskipped] at this
          cases this
        simp [hlays, Plan.openPart, hincluded, hskipped, hdeparted]
      · simp [hlays, Plan.openPart, hincluded, hskipped]

theorem openedPart_final (plan : Plan) (s : State) (e : Eye) :
    (s.openedPart plan e).state.final = (plan.openPart e).state.final := by
  rw [openedPart_eq]
  split
  · unfold EyePart.fire
    split
    · next h => rw [h]; rfl
    · rfl
  · rfl

theorem slotAfter_complete (plan : Plan) (s : State) : (slotAfter plan s).complete = (slotBefore plan s).complete := by
  unfold PairSlot.complete slotAfter
  dsimp only
  rw [openedPart_final, openedPart_final]
  rfl

theorem dropWhile_append_open {l : List PairSlot} (h : ∀ slot ∈ l.head?, slot.complete = false) (slot : PairSlot) :
    (l ++ [slot]).dropWhile PairSlot.complete = (if slot.complete = true ∧ l = [] then [] else l ++ [slot]) ∧
      ∀ x ∈ (l ++ [slot]).takeWhile PairSlot.complete, x = slot := by
  cases l with
  | nil =>
    cases hc : slot.complete <;> simp [hc]
  | cons first rest =>
    have hfirst := h first rfl
    simp [hfirst]

/-- The window, the lists and the lines once the mark's slot is open, before its pulses (R132). -/
theorem rollMarkOpened_fields {m : Time} {plan : Plan} {s : State} (hlists : s.listsSound) (hrig : s.cg.rig = .rolling) :
    (rollMarkOpened m plan s).pe.window =
        (if (slotBefore plan s).complete = true ∧ (ageWindow s).pe.window = [] then []
          else (ageWindow s).pe.window ++ [slotBefore plan s]) ∧
      (∀ slot ∈ (ageWindow s).pe.window, slot.mark ≠ s.cg.markCounter) ∧
      ∀ e, (rollMarkOpened m plan s).tp.pulses.get e = (ageWindow s).tp.pulses.get e ∧
        (rollMarkOpened m plan s).pe.triggers.get e = (ageWindow s).pe.triggers.get e ∧
        ((rollMarkOpened m plan s).eye e).trig = (s.eye e).trig := by
  obtain ⟨hages, -, hmarks, hnamed⟩ := rollMarkJoined_window m plan hlists hrig
  have hjpe : (rollMarkJoined m plan s).pe = (ageWindow s).pe := by
    unfold rollMarkJoined
    rw [ageWindow_mapCg]
    simp
  have hjpulses : (rollMarkJoined m plan s).tp.pulses = (ageWindow s).tp.pulses := by
    unfold rollMarkJoined
    rw [ageWindow_mapCg, joinEye_tp, joinEye_tp]
    rfl
  have hjtrig : ∀ e, ((rollMarkJoined m plan s).eye e).trig = (s.eye e).trig := fun e => by
    rw [(rollMarkJoined_eye m plan s e).1, ageWindow_eye]
    split <;> rfl
  have hslot : (rollMarkJoined m plan s).openSlot plan s.cg.markCounter s.cg.inHoldover s.cg.lock.stepOwed =
      slotBefore plan s := by
    have htime : (rollMarkJoined m plan s).timebase = s.timebase := by simp [rollMarkJoined]
    have htake : (rollMarkJoined m plan s).cg.take = s.cg.take := by simp [rollMarkJoined, numberMark_eq]
    rw [slotBefore, State.openSlot, State.openSlot, htime, htake]
  have hopened : rollMarkOpened m plan s =
      openWindow (slotBefore plan s) (rollMarkJoined m plan s) := by rw [rollMarkOpened, hslot]
  generalize rollMarkJoined m plan s = j at *
  have hlen : (j.pe.window.map PairSlot.mark).length ≤ 8 := by
    obtain ⟨-, hmax, hdecreasing, hbound, -⟩ := hages
    have hle := agesSound.length_le hdecreasing hbound
    rw [List.length_map] at hle ⊢
    omega
  have hapart := (hmarks.apart hlen).2
  rw [hjpe] at hapart
  have hhead : ∀ slot ∈ (ageWindow s).pe.window.head?, slot.complete = false := by
    rw [ageWindow_window]
    exact dropWhile_head _ _
  obtain ⟨hwindow, honly⟩ := dropWhile_append_open hhead (slotBefore plan s)
  have hfree : ∀ {e : Eye} {mark : MarkNumber} {st : PartState}, windowPart j.pe.window e mark st →
      freeOf (((ageWindow s).pe.window ++ [slotBefore plan s]).takeWhile PairSlot.complete) mark = true := fun hpart => by
    rw [freeOf_iff]
    intro slot hslot heq
    rw [honly slot hslot] at heq
    have hmem := hpart.mark_mem
    rw [hjpe, ← heq] at hmem
    exact hapart hmem
  rw [hopened, openWindow, retire, State.mapPe_pe, hjpe]
  refine ⟨?_, fun slot hslot heq => hapart (heq ▸ List.mem_map_of_mem hslot), fun e => ⟨?_, ?_, ?_⟩⟩
  · rw [retireFrom_window, hwindow]
  · obtain ⟨-, -, hpending, -⟩ := (listsNamed_iff j e).1 (hnamed e)
    rw [retireFrom_pulses, ← hjpulses]
    exact List.filter_eq_self.2 fun p hp => hfree (hpending p hp)
  · obtain ⟨-, -, -, hawaited⟩ := (listsNamed_iff j e).1 (hnamed e)
    rw [retireFrom_triggers, ← hjpe]
    rw [← hjpe] at hfree
    exact List.filter_eq_self.2 fun x hx => hfree (hawaited x hx)
  · rw [retireFrom_port, ← hjtrig]
    split <;> rfl

/-- A pulse that fires at the mark fires in the mark's own slot, the last of the window (R134). -/
theorem fire_lastSlot {l : List PairSlot} {number : MarkNumber} (h : ∀ slot ∈ l, slot.mark ≠ number) {slot : PairSlot}
    (hslot : slot.mark = number) (fires : Bool) (f : PairSlot → PairSlot) :
    (if fires then (l ++ [slot]).map fun p => if p.mark = number then f p else p else l ++ [slot]) =
      l ++ [if fires then f slot else slot] := by
  cases fires
  · rfl
  · have hrest : (l.map fun p => if p.mark = number then f p else p) = l :=
      (List.map_congr_left fun p hp => if_neg (h p hp)).trans (List.map_id _)
    simp only [if_true, List.map_append, List.map_cons, List.map_nil, hrest, if_pos hslot]

theorem slotAfter_eq (plan : Plan) (s : State) : slotAfter plan s =
    if plan.firesAtMark .right then
      (if plan.firesAtMark .left then (slotBefore plan s).mapPart .left (EyePart.fire (s.nextTrigger plan .left))
        else slotBefore plan s).mapPart .right (EyePart.fire (s.nextTrigger plan .right))
    else if plan.firesAtMark .left then (slotBefore plan s).mapPart .left (EyePart.fire (s.nextTrigger plan .left))
    else slotBefore plan s := by
  rw [slotAfter, openedPart_eq, openedPart_eq]
  cases plan.firesAtMark .left <;> cases plan.firesAtMark .right <;> rfl

/-- An eye may have its pulse laid once the mark's slot is open. -/
theorem rollMarkOpened_ready {m : Time} {plan : Plan} {s : State} (hlists : s.listsSound) (hpulses : s.pulsesSound)
    (hrig : s.cg.rig = .rolling) (hprepared : s.tp.prepared = some plan) (e : Eye) :
    (plan.lays e = true → ((rollMarkOpened m plan s).eye e).state.inTake = true) ∧
      (plan.lays e = true → ∀ q ∈ (rollMarkOpened m plan s).tp.pulses.get e, q.mark ≠ s.cg.markCounter) ∧
      (rollMarkOpened m plan s).tp.triggerNumber.get e = s.nextTrigger plan e := by
  obtain ⟨-, hawaits⟩ := rollMarkOpened_listsSound m plan hlists hrig
  obtain ⟨-, -, hserved, -⟩ := hpulses
  refine ⟨fun hlays => ?_, fun hlays => ?_, ?_⟩
  · have hserves : plan.included.get e = true ∧ plan.departed.get e = false := by
      have h : plan.included.get e = true ∧ plan.departed.get e = false ∧ plan.skipped = false := by
        simpa [Plan.lays, and_assoc] using hlays
      exact ⟨h.1, h.2.1⟩
    rw [rollMarkOpened, openWindow, retire_state, State.mapPe_eye, (rollMarkJoined_eye m plan s e).1]
    split
    · rfl
    · rw [ageWindow_state]
      exact hserved plan hprepared e hserves.1 hserves.2
  · obtain ⟨hserves, hlaid⟩ := (Bool.and_eq_true _ _).mp ((lays_iff plan e).trans hlays)
    exact (hawaits e hserves (by simpa using hlaid)).2
  · rw [rollMarkOpened_tp]
    exact (rollMarkJoined_eye m plan s e).2

/-- A rolling mark opens its slot and lays its pulses (R84 to R87, R131, R134). -/
theorem rollMarkLaid_opens {m : Time} {plan : Plan} {s : State} (hlists : s.listsSound) (hpulses : s.pulsesSound)
    (hrig : s.cg.rig = .rolling) (hprepared : s.tp.prepared = some plan) : opensSlot plan s (rollMarkLaid m plan s) := by
  obtain ⟨hwindow, hapart, hkept⟩ := rollMarkOpened_fields (m := m) (plan := plan) hlists hrig
  have hready := rollMarkOpened_ready (m := m) hlists hpulses hrig hprepared
  have htime : (rollMarkLaid m plan s).timebase = s.timebase := (rollMarkLaid_frame m plan s).1
  have hotime : (rollMarkOpened m plan s).timebase = s.timebase := by simp [rollMarkOpened, rollMarkJoined]
  have hlaid : rollMarkLaid m plan s =
      layPulse plan .right s.cg.markCounter (layPulse plan .left s.cg.markCounter (rollMarkOpened m plan s)) := rfl
  generalize rollMarkOpened m plan s = o at *
  generalize rollMarkLaid m plan s = t at *
  obtain ⟨x, hx⟩ : ∃ x, x = layPulse plan .left s.cg.markCounter o := ⟨_, rfl⟩
  rw [← hx] at hlaid
  have hxtime : x.timebase = s.timebase := by rw [hx]; simp [hotime]
  obtain ⟨hinL, hnewL, hnumberL⟩ := hready .left
  obtain ⟨hinR, hnewR, hnumberR⟩ := hready .right
  obtain ⟨hlp, hln, hlt, hlw, hle⟩ := layPulse_fields hinL hnewL
  obtain ⟨hop, hon, hot, hoe⟩ := layPulse_other (p := plan) (e := .left) (e' := .right) (by decide) s.cg.markCounter o
  obtain ⟨hkp, hkn, hkt, hke⟩ := layPulse_other (p := plan) (e := .right) (e' := .left) (by decide) s.cg.markCounter x
  rw [← hx] at hlp hln hlt hlw hle hop hon hot hoe
  obtain ⟨hrp, hrn, hrt, hrw, hre⟩ := layPulse_fields (p := plan) (e := .right) (number := s.cg.markCounter) (s := x)
    (by rw [hoe]; exact hinR) (by rw [hop]; exact hnewR)
  rw [← hlaid] at hrp hrn hrt hrw hre hkp hkn hkt hke
  refine ⟨⟨slotAfter plan s, ?_, ?_⟩, fun e => ?_⟩
  · rw [htime]
    rfl
  · rw [hrw, hlw, hon, hnumberL, hnumberR, hwindow, slotAfter_complete]
    by_cases hempty : (slotBefore plan s).complete = true ∧ (ageWindow s).pe.window = []
    · rw [if_pos hempty, if_pos hempty]
      cases plan.firesAtMark .left <;> cases plan.firesAtMark .right <;> rfl
    · rw [if_neg hempty, if_neg hempty, fire_lastSlot hapart rfl (plan.firesAtMark .left),
        fire_lastSlot hapart (by split <;> rfl), slotAfter_eq]
  · obtain ⟨hpulse, htrigger, htrig⟩ := hkept e
    rw [htime]
    cases e with
    | left =>
      refine ⟨?_, ?_, ?_, ?_⟩
      · rw [hkn, hln, hnumberL]
      · rw [hkp, hlp, hpulse, hotime]
        rfl
      · rw [hkt, hlt, htrigger, hnumberL]
      · rw [hke, hle, htrig, hotime]
    | right =>
      refine ⟨?_, ?_, ?_, ?_⟩
      · rw [hrn, hon, hnumberR]
      · rw [hrp, hop, hpulse, hxtime]
        rfl
      · rw [hrt, hot, hon, htrigger, hnumberR]
      · rw [hre, hoe, htrig, hxtime]

/-- What the slot and the pulses of a mark look at. -/
theorem opensSlot_congr {p : Plan} {s s' t t' : State} (h : opensSlot p s t) (hcg : s'.cg = s.cg) (hae : s'.ae = s.ae)
    (htp : s'.tp = s.tp) (hpe : s'.pe = s.pe)
    (hs : ∀ e, (s'.eye e).state = (s.eye e).state ∧ (s'.eye e).trig = (s.eye e).trig)
    (htime : t'.timebase = t.timebase) (htpe : t'.pe = t.pe) (hnumber : t'.tp.triggerNumber = t.tp.triggerNumber)
    (hlaid : t'.tp.pulses = t.tp.pulses) (ht : ∀ e, (t'.eye e).trig = (t.eye e).trig) : opensSlot p s' t' := by
  have hwindow : (ageWindow s').pe.window = (ageWindow s).pe.window := by
    rw [ageWindow_window, ageWindow_window, hae, hpe]
  have hagedPulses : ∀ e, (ageWindow s').tp.pulses.get e = (ageWindow s).tp.pulses.get e := fun e => by
    rw [ageWindow_pulses, ageWindow_pulses, hae, hpe, htp]
  have hagedTriggers : ∀ e, (ageWindow s').pe.triggers.get e = (ageWindow s).pe.triggers.get e := fun e => by
    rw [ageWindow_triggers, ageWindow_triggers, hae, hpe]
  have htrigger : ∀ e, s'.nextTrigger p e = s.nextTrigger p e := fun e => by
    rw [State.nextTrigger, State.nextTrigger, joins_congr (hs e).1, htp]
  have hopened : ∀ e, s'.openedPart p e = s.openedPart p e := fun e => by
    rw [State.openedPart, State.openedPart, htrigger]
  unfold opensSlot at *
  simp only [hwindow, hagedPulses, hagedTriggers, htrigger, hopened, hcg, htime, htpe, hnumber, hlaid, ht, (hs _).2]
  exact h

/-- Settles O22: the prepared plan's mark, by its stages, and the start of the next plan. -/
theorem rollingMarksNumberAndPlan : Obligations.RollingMarksNumberAndPlan := by
  intro s m plan a hheld hrig howed hnext hnone hprepared ha
  obtain ⟨hwcg, hwae, hwtp, hwlts, hwlme, hwpe, -⟩ := waitUntil_frame m s
  have hwtime := waitUntil_timebase (m := m) hheld
  have hwport := waitUntil_port m s
  have hdue := dueMark_some hheld ((markKind_iff s).2.2.1.2 ⟨hrig, howed⟩) hnext
  have hexec : exec .rollingMark s = .next (rollingMarkEvent m s) := by
    simp only [exec, execRollingMark, hdue]
  rw [rollingMarkEvent_prepared hnone hprepared] at hexec
  have hopens := rollMarkLaid_opens (m := m) (plan := plan) (s := waitUntil m s)
  have hcaps := rollMarkLaid_caps m plan (waitUntil m s)
  have hstate := rollMarkLaid_state m plan (waitUntil m s)
  obtain ⟨hltp, hreadout⟩ := rollMarkLaid_tp m plan (waitUntil m s)
  obtain ⟨hltime, hlcg, hlae, hllts, hllme⟩ := rollMarkLaid_frame m plan (waitUntil m s)
  have hjoins : ∀ e, (waitUntil m s).joins plan e = s.joins plan e := fun e => joins_congr (hwport e).1
  have hwlists : s.listsSound → (waitUntil m s).listsSound :=
    (keepsLists_of_eq (t := waitUntil m s) (by simp) (by simp) (by simp) (by simp)).sound
  have hwpulses : s.pulsesSound → (waitUntil m s).pulsesSound := fun h =>
    pulsesSound_of_eq h (by rw [hwcg]) hwtp fun e => ⟨(hwport e).1, (hwport e).2.2.2.2⟩
  generalize rollMarkLaid m plan (waitUntil m s) = l at *
  rw [hwcg, numberMark_eq] at hlcg
  rw [hwtp] at hltp
  obtain ⟨u, hu⟩ : ∃ u, u = l.mapTp fun t => { t with prepared := none } := ⟨_, rfl⟩
  have hucg : u.cg = l.cg := by rw [hu]; rfl
  have hulae : u.ae = s.ae := by rw [hu]; exact hlae.trans hwae
  obtain ⟨next, hfields, -, hbegan⟩ := planStart_fields (u := u) (a := a) (by rw [hulae, ha])
  have hcg : (planStart u).cg = u.cg.beginPlan a u.timebase := by rw [hfields]
  have htime : (planStart u).timebase = s.timebase + BitVec.ofNat 48 (ticksUntil s.timebase m) := by
    rw [hfields, hu]
    exact hltime.trans hwtime
  have hteye : ∀ e, (planStart u).eye e = l.eye e := fun e => by
    rw [planStart_eye, hu]
    rfl
  refine ⟨planStart u, next, by rw [hexec, hu], htime, ?_, ?_, ?_, ?_, ?_, ?_, ?_, ?_, fun e => ?_, fun e => ?_, fun h => ?_,
    fun h h' => ?_⟩
  · have hstep : (planStart u).cg = { u.cg with
        currentRate := (planStart u).cg.currentRate, ramp := (planStart u).cg.ramp
        planPeriod := (planStart u).cg.planPeriod, nextMark := (planStart u).cg.nextMark } := by
      rw [hcg]
      exact beginPlan_eq _ _ _
    rw [htime, ← hwtime]
    generalize (planStart u).cg = c at hstep ⊢
    rw [hstep, hucg, hlcg]
  · refine markPassed_of ?_ ?_ fun href => ?_
    · rw [hcg, beginPlan_eq, hucg, hlcg]
    · rw [hcg, beginPlan_eq, hucg, hlcg]
    · rw [hcg, beginPlan_ref a _ (by rw [hucg, hlcg, href]), hucg, hlcg]
  · refine beganPlan_congr (hbegan ?_) ?_ ?_ ?_ ?_ ?_ <;> rw [hucg, hlcg]
    exact hrig
  · rw [(planStart_frame u).2.2.1, hulae]
  · obtain ⟨hit, hcleared⟩ := applyPendingOps_lme u
    rw [hfields]
    dsimp only
    rw [hcleared, hu]
    have hdemand : l.lme.demand = s.lme.demand := congrArg LensMatch.demand (hllme.trans hwlme)
    exact hdemand
  · rw [hfields, hu]
    have hmode : l.tp.shutterMode = s.tp.shutterMode := by rw [hltp]
    exact hmode
  · rw [hfields, hu]
    have hvalue : l.tp.shutterValue = s.tp.shutterValue := by rw [hltp]
    exact hvalue
  · rw [hfields, hu]
    rfl
  · rw [hteye, hstate, hjoins, (hwport e).1, State.joins]
    simp [and_assoc]
  · rw [htime, hfields, hu]
    change l.tp.lastReadout.get e = _
    rw [hreadout, hwtime, hwtp, Plan.lays, Plan.pulseTime]
    simp [and_assoc, after]
  · exact heldApplied_congr (planStart_heldApplied (h.form.congr (by rw [hu]; exact hllts.trans hwlts)
      fun e => by rw [hu]; exact (hcaps e).trans (hwport e).2.1)) (by rw [hu]; exact (hllts.trans hwlts).symm)
      (by rw [hu]; exact congrArg LensMatch.previous (hllme.trans hwlme).symm) rfl rfl fun _ => rfl
  · refine opensSlot_congr (hopens (hwlists h) (hwpulses h') (by rw [hwcg]; exact hrig) (by rw [hwtp]; exact hprepared))
      hwcg.symm hwae.symm hwtp.symm hwpe.symm (fun e => ⟨(hwport e).1.symm, (hwport e).2.2.2.2.symm⟩) ?_ ?_ ?_ ?_ fun e => ?_
    · rw [hfields, hu]; rfl
    · rw [hfields, hu]; rfl
    · rw [hfields, hu]; rfl
    · rw [hfields, hu]; rfl
    · rw [hteye]

end Sys2Proof.Machine
end
